-- ==== Sys2Proof/Word.lean ====
section
/-! DEFINITION. The widths of crc16_modbus (00_scope.md rule R5, 30_encoding.md rule R32). -/

namespace Sys2Proof

/-- A 16-bit value: the CRC register, a table entry, a response (R5). -/
abbrev Word := BitVec 16

/-- An 8-bit value: an input byte, a table index, the counter GI (R5, R14). -/
abbrev Byte := BitVec 8

/-- A 10-bit command word, as it stands on the port `cmd` (R32). -/
abbrev CmdWord := BitVec 10

end Sys2Proof
end

