-- ==== Sys2Proof/Config.lean ====
section
/-! DEFINITION. What is fixed for the block, and the free values the spec leaves open.
The constants are "fixed, not configurable" (00_scope.md rule R4); a name without a body is a free value: nothing in Lean knows what it is. -/

namespace Sys2Proof

/-- `SEED`: the value CRC takes at the start of a computation (R4, R50). -/
def Config.seed : Word := 0xFFFF#16

/-- `POLY_REFLECTED`: the constant of one table iteration (R4, R40). -/
def Config.polyReflected : Word := 0xA001#16

/-- `POLY_NORMAL`: informative only, no rule uses it (00_scope.md section 5). -/
def Config.polyNormal : Word := 0x8005#16

/-- `TABLE_SIZE`: the number of table entries (R4, R20). -/
def Config.tableSize : Nat := 256

/-- `NUM_DATAPATHS`: one CRC register, one command port (R10, R67, decision D16). -/
def Config.numDatapaths : Nat := 1

/-- Free value (log entry 1): what entry `i` of TABLE holds after the n-th RESET until GEN writes it.
R19: "each entry holds some 16-bit value that may differ from entry to entry and from reset to reset". -/
opaque Config.unspecifiedEntry : Nat → Byte → Word

/-- Free value (log entry 2): whether GEN goes first at a step at which GEN and the presented command are both enabled
and `schedule` names no choice. R64: "the spec fixes no priority". -/
opaque Config.genFirst : Nat → Bool

/-- Open value (log entry 5): `T_CMD` less one. -/
opaque Config.tCmdLessOne : Nat

/-- Open value (log entry 5): `T_GEN` less one. -/
opaque Config.tGenLessOne : Nat

/-- `T_CMD`: clock cycles from one acceptance to the next, at least 1, used by no rule (R77). -/
def Config.tCmd : Nat := Config.tCmdLessOne + 1

/-- `T_GEN`: clock cycles per GEN step, at least 1, used by no rule (R77). -/
def Config.tGen : Nat := Config.tGenLessOne + 1

/-- "A build takes 256 x T_GEN cycles" (R77). -/
def Config.buildCycles : Nat := Config.tableSize * Config.tGen

end Sys2Proof
end

