-- ==== Sys2Proof/Syntax.lean ====
section
/-! DEFINITION. The four commands of crc16_modbus, one constructor per row of spec/opcode_table.json (30_encoding.md rule R33).
The ignored `data` field of BUILD, INIT and READ is no part of the command (R34). GEN and RESET are no commands and have no encoding (R33). -/

namespace Sys2Proof

/-- A command of the host. -/
inductive Instr where
  /-- BUILD starts the table generator (R42). -/
  | build
  /-- INIT loads the seed (R50). -/
  | init
  /-- UPDATE folds one byte into CRC (R51). -/
  | update (data : Byte)
  /-- READ responds the value of CRC (R52). -/
  | read
  deriving DecidableEq, Repr

end Sys2Proof
end

