-- ==== Sys2Proof/WellFormed.lean ====
section
/-! DEFINITION. Which terms are well formed. Every command is (30_encoding.md rule R36: no illegal or reserved encoding);
what can be ill formed stands outside the block: a number too wide for the port `cmd` or for a byte (60_exceptions.md rules R62, R69),
and a word an assembler does not emit (R34, canonical words). -/

namespace Sys2Proof

/-- Every command is well formed: "any byte value is valid input; there is no malformed-input case" (R34, R36). -/
def Instr.wf : Instr → Bool
  | .build => true
  | .init => true
  | .update _ => true
  | .read => true

/-- The number fits the 10-bit port `cmd` (R32). -/
def fitsCommand (w : Nat) : Bool := decide (w < 1024)

/-- The number fits the 8-bit `data` field (R62). -/
def fitsByte (b : Nat) : Bool := decide (b < 256)

/-- The word is one an assembler emits: an ignored `data` field is 0x00 (R34). -/
def canonicalWord (w : CmdWord) : Bool :=
  w.extractLsb' 8 2 == 0b10#2 || w.extractLsb' 0 8 == 0#8

end Sys2Proof
end

