-- ==== Sys2Proof/Decode.lean ====
section
/-! DEFINITION. The command decoder (30_encoding.md rules R32 to R36), the encoder written from the same table, and the boundary
that refuses by name what does not fit the ports (60_exceptions.md rules R62, R69). -/

namespace Sys2Proof

/-- `op`, bits 9:8 of a command word (R32). -/
def opField (w : CmdWord) : BitVec 2 := w.extractLsb' 8 2

/-- `data`, bits 7:0 of a command word (R32). -/
def dataField (w : CmdWord) : Byte := w.extractLsb' 0 8

/-- The decoder: "a total function from the 1024 possible command words to the four commands" (R33). -/
def decode (w : CmdWord) : Instr :=
  if opField w = 0b00#2 then .build
  else if opField w = 0b01#2 then .init
  else if opField w = 0b10#2 then .update (dataField w)
  else .read

/-- The canonical word of a command (R34): BUILD = 0x000, INIT = 0x100, UPDATE b = 0x200 + b, READ = 0x300. -/
def encode : Instr → CmdWord
  | .build => 0x000#10
  | .init => 0x100#10
  | .update b => (0b10#2 ++ b : BitVec (2 + 8))
  | .read => 0x300#10

/-- A row of the opcode map: the columns `mask` and `match` of R33. -/
structure OpRow where
  mask : CmdWord
  bits : CmdWord
  deriving DecidableEq, Repr

/-- The word belongs to the row: `(w and mask) = match` (R33). -/
def OpRow.covers (r : OpRow) (w : CmdWord) : Bool := w &&& r.mask == r.bits

/-- The row of spec/opcode_table.json of each command (R33). -/
def opRow : Instr → OpRow
  | .build => ⟨0x300#10, 0x000#10⟩
  | .init => ⟨0x300#10, 0x100#10⟩
  | .update _ => ⟨0x300#10, 0x200#10⟩
  | .read => ⟨0x300#10, 0x300#10⟩

/-- The whole opcode map, in the table's order (R33). -/
def opcodeMap : List OpRow :=
  [opRow .build, opRow .init, opRow (.update 0#8), opRow .read]

/-- Why the boundary outside the machine turns an input away (R62: "fail fast with an invalid-input error (not silently truncate or coerce)").
Safe: it stands outside the block, which has no malformed input. -/
inductive InvalidInput where
  /-- Raised by `commandWordOf`: the number does not fit the 10 bits of `cmd` (R69). -/
  | commandTooWide (w : Nat)
  /-- Raised by `byteOf`: the number is no byte (R62). -/
  | notAByte (b : Nat)
  deriving DecidableEq, Repr

/-- The boundary of the port `cmd`: a number of the host as a command word, refused if it is wider (R69). -/
def commandWordOf (w : Nat) : Except InvalidInput CmdWord :=
  if fitsCommand w then .ok (BitVec.ofNat 10 w) else .error (.commandTooWide w)

/-- The boundary for one byte of the host's buffer: refused, never truncated (R62). -/
def byteOf (b : Nat) : Except InvalidInput Byte :=
  if fitsByte b then .ok (BitVec.ofNat 8 b) else .error (.notAByte b)

/-- The boundary for a whole buffer: the first value that is no byte is reported (R62). -/
def bytesOf : List Nat → Except InvalidInput (List Byte)
  | [] => .ok []
  | b :: rest =>
    match byteOf b, bytesOf rest with
    | .ok x, .ok xs => .ok (x :: xs)
    | .error e, _ => .error e
    | .ok _, .error e => .error e

/-- The command the decoder reads from a word numbered as spec/opcode_table.json numbers it (bit 0 of the table is bit 0 of `cmd`).
The table's 10 bits may come in 10 or, in whole bytes, 16: a number with a bit above `nbits` or above bit 9 is refused (R69; log entry 6). -/
def decodeTableWord (nbits w : Nat) : Option Instr :=
  if w < 2 ^ nbits then
    match commandWordOf w with
    | .ok c => some (decode c)
    | .error _ => none
  else none

end Sys2Proof
end

