-- ==== Sys2Proof/Machine/Operands.lean ====
section
/-! DEFINITION. The operand forms: the byte of UPDATE and the table index it makes (30_encoding.md rule R34, 41_datapath.md rules R51, R81). -/

namespace Sys2Proof.Machine

/-- `zext_16(b)`: zero extension, `{0x00, b}` (R34). -/
def zext16 (b : Byte) : Word := b.setWidth 16

/-- `bits[7:0]` of a 16-bit value. -/
def lowByte (w : Word) : Byte := w.extractLsb' 0 8

/-- `bits[15:8]` of a 16-bit value. -/
def highByte (w : Word) : Byte := w.extractLsb' 8 8

/-- The one addressing mode, "register XOR immediate, low byte" (R81): bits 7:0 of (CRC xor zext_16(byte)) (R51). -/
def tableIndex (c : Word) (b : Byte) : Byte := lowByte (c ^^^ zext16 b)

end Sys2Proof.Machine
end

