-- ==== Sys2Proof/Machine/Crc.lean ====
section
/-! DEFINITION. The pure functions BITSTEP, ENTRY (40_table_generator.md rules R40, R41), UPD and FOLD (41_datapath.md rules R51, R53).
On 16-bit values the masks of 00_scope.md rule R6 are the identity (R7); every shift is logical (R6). -/

namespace Sys2Proof.Machine

/-- `BITSTEP(w)`: one shift-and-conditional-XOR iteration; bit 0 is tested before the shift (R40). -/
def bitstep (w : Word) : Word :=
  if w.getLsbD 0 then (w >>> 1) ^^^ Config.polyReflected else w >>> 1

/-- `n` iterations of BITSTEP. -/
def bitsteps : Nat → Word → Word
  | 0, w => w
  | n + 1, w => bitsteps n (bitstep w)

/-- `ENTRY(v)`: eight iterations from `zext_16(v)` (R41). -/
def entry (v : Byte) : Word := bitsteps 8 (zext16 v)

/-- One update with the table entry already looked up: `(register RIGHT-SHIFT 8) XOR entry` (R51). -/
def combine (c : Word) (e : Word) : Word := (c >>> 8) ^^^ e

/-- `UPD(c, b)` (R51). -/
def upd (c : Word) (b : Byte) : Word := combine c (entry (tableIndex c b))

/-- `FOLD(c, S)`: UPD folded from the left (R53). -/
def fold : Word → List Byte → Word
  | c, [] => c
  | c, b :: rest => fold (upd c b) rest

/-- `compute(S)`: the checksum of the byte sequence `S`, with no final XOR (R54, R52 corner case (e)). -/
def compute (S : List Byte) : Word := fold Config.seed S

end Sys2Proof.Machine
end

