-- ==== Sys2Proof/Machine/State.lean ====
section
/-! DEFINITION. The state of crc16_modbus (10_state.md rules R10 to R19) and, with it, the parameters of a run that the spec
keeps outside the block: the command stream, the schedule, the response channel (10_state.md section 1; log entries 2, 3, 4). -/

namespace Sys2Proof.Machine

/-- TABLE as the entries written since the latest RESET: (index, entry) pairs in ONE canonical form, indices strictly rising and
below 256; an index that is not listed holds its unspecified reset content (R11, R19, R20; log entry 1). -/
abbrev Memory := List (Nat × Word)

/-- Who steps next (R64). -/
inductive Turn where
  /-- The table generator's step GEN (R43). -/
  | gen
  /-- The command port tries the command at the head of the stream (R38, R65). -/
  | port
  /-- The host applies RESET; with `some ws` it presents `ws` from then on instead of what it presented (R38, R70). -/
  | reset (change : Option (List CmdWord))
  deriving DecidableEq, Repr

/-- What the latest step was (R69; the response channel of R31 is read from it; log entry 4). -/
inductive Event where
  /-- RESET (R70). -/
  | reset
  /-- A GEN step (R43). -/
  | gen
  /-- A command was accepted; READ alone responds (R35). -/
  | accepted (rsp : Option Word)
  /-- The presented command was held: nothing of the block changed (R65). -/
  | held
  /-- The agent whose turn it was had nothing to do: an idle generator (R43 corner case (a)) or no command (R78). -/
  | waiting
  deriving DecidableEq, Repr

/-- The machine. The first five fields are the block's whole state (R17, R19). -/
structure State where
  /-- `CRC` (R10). -/
  crc : Word
  /-- `TABLE` (R11). -/
  table : Memory
  /-- `TV`, table valid (R12). -/
  tv : Bool
  /-- `GBUSY`, generator busy (R13). -/
  gbusy : Bool
  /-- `GI`, the index of the next entry to write (R14). -/
  gi : Byte
  /-- The host's command stream; its head is the word presented on `cmd` (R38). -/
  stream : List CmdWord
  /-- The scheduler's coming choices; when it is empty R64 is followed with the free choice `Config.genFirst`. -/
  schedule : List Turn
  /-- What the response channel has delivered, oldest first (R35, R78). -/
  responses : List Word
  /-- What the latest step was (R69). -/
  event : Event
  /-- The argument of the free choice `Config.genFirst`; the model's own. -/
  tick : Nat
  /-- How many RESETs have been applied: the argument of the free value `Config.unspecifiedEntry`; the model's own. -/
  resets : Nat
  deriving DecidableEq, Repr

/-- There is no fault: "no step function returns a fault" (R61, R69). -/
inductive Fault where
  deriving DecidableEq, Repr

/-- The outcome of a step of the block, "exactly three constructors" (R69); no fault and no refusal among them. -/
inductive Result where
  /-- The next state, without a response: BUILD, INIT, UPDATE, GEN, RESET. -/
  | next (t : State)
  /-- The next state and the 16-bit response: READ only. -/
  | nextResponse (t : State) (v : Word)
  /-- The command is held: BUILD at GBUSY = 1, UPDATE at TV = 0 (R65). -/
  | held
  deriving DecidableEq, Repr

/-- The block refuses nothing (R36, R69): `Result` is its outcome type. This type stands outside it, in the interface of the host's
machine, which asks for the constructor (log entry 11). -/
inductive Refusal where
  /-- Raised by nothing: no arm of `exec` and no step answers with it (`Obligations.ThreeOutcomesOnly`). Safe: the machine would stop. -/
  | notModelled (mnemonic : String)
  deriving DecidableEq, Repr

/-- The machine right after RESET (R19), with nothing presented, nothing scheduled and nothing delivered (log entries 2, 3, 4). -/
def State.reset : State where
  crc := Config.seed
  table := []
  tv := false
  gbusy := false
  gi := 0#8
  stream := []
  schedule := []
  responses := []
  event := .reset
  tick := 0
  resets := 0

end Sys2Proof.Machine
end

