-- ==== Sys2Proof/Machine/Flags.lean ====
section
/-! DEFINITION. The two flags TV and GBUSY and the counter GI: who sets and clears them (10_state.md rules R12, R13, R14), and what
they decide: the acceptance of each command (30_encoding.md rule R38). No operation on data writes a flag (R6, 10_state.md section 4). -/

namespace Sys2Proof.Machine

/-- What the acceptance of BUILD does: TV <- 0, GBUSY <- 1, GI <- 0 (R42). -/
def State.startBuild (s : State) : State := { s with tv := false, gbusy := true, gi := 0#8 }

/-- What the GEN step at GI = 255 does to flags and counter: GI <- 0, GBUSY <- 0, TV <- 1 (R43). -/
def State.finishBuild (s : State) : State := { s with tv := true, gbusy := false, gi := 0#8 }

/-- What the GEN step at GI < 255 does to the counter: GI <- GI + 1 (R43). -/
def State.advanceGi (s : State) : State := { s with gi := s.gi + 1#8 }

/-- The acceptance condition of each command, a function of the flags only (R38). -/
def State.ready (s : State) : Instr → Bool
  | .build => !s.gbusy
  | .init => true
  | .update _ => s.tv
  | .read => true

end Sys2Proof.Machine
end

