-- ==== Sys2Proof/Machine/Ops.lean ====
section
/-! DEFINITION. The named operations over table, register and channels. TableRead and TableWrite are 20_memory.md rule R21;
accepting and holding a command are 30_encoding.md rule R38 and 60_exceptions.md rule R65; RESET is 70_reset_and_hazards.md rule R70.
There is no exception to take and no return from one (60_exceptions.md rules R61, R65): where a processor would trap, this block holds. -/

namespace Sys2Proof.Machine

/-- The canonical form of the written entries: indices strictly rising and inside the table space 0 to 255 (R20). -/
def Memory.wf : Memory → Bool
  | [] => true
  | (a, _) :: rest => decide (a < 256) && rest.all (fun c => decide (a < c.1)) && Memory.wf rest

/-- The entry written at index `i` since the latest RESET, if there is one. -/
def Memory.get? : Memory → Nat → Option Word
  | [], _ => none
  | (a, v) :: rest, i => if a = i then some v else Memory.get? rest i

/-- The written entries with index `i` now holding `v`. -/
def Memory.put : Memory → Nat → Word → Memory
  | [], i, v => [(i, v)]
  | (a, w) :: rest, i, v =>
    if i < a then (i, v) :: (a, w) :: rest
    else if i = a then (i, v) :: rest
    else (a, w) :: Memory.put rest i v

/-- `TableRead(i)`: the 16-bit content of TABLE[i], no side effect (R21, R25); an entry that GEN has not written since the latest
RESET reads as its unspecified content, a free value (R19; log entry 1). -/
def State.tableRead (s : State) (i : Byte) : Word :=
  (s.table.get? i.toNat).getD (Config.unspecifiedEntry s.resets i)

/-- `TableWrite(i, v)`: replaces TABLE[i] and changes no other entry (R21). -/
def State.tableWrite (s : State) (i : Byte) (v : Word) : State :=
  { s with table := s.table.put i.toNat v }

/-- `CRC <- v`. -/
def State.setCrc (s : State) (v : Word) : State := { s with crc := v }

/-- Records what the step was. -/
def State.note (s : State) (e : Event) : State := { s with event := e }

/-- The presented command is accepted: the host's stream moves on by one word, and `rsp`, if there is one, is delivered (R35, R38). -/
def State.accept (s : State) (rsp : Option Word) : State :=
  { s with stream := s.stream.tail, responses := s.responses ++ rsp.toList, event := .accepted rsp }

/-- The presented command is held: no state of the block changes and it stays at the head of the stream (R65). -/
def State.hold (s : State) : State := s.note .held

/-- A command in its step: accepted with its effect (the state `t` and the response `rsp`) if its acceptance condition holds,
held otherwise (R38, R65, R69). -/
def offer (i : Instr) (s t : State) (rsp : Option Word) : Result :=
  if s.ready i then
    match rsp with
    | none => .next (t.accept none)
    | some v => .nextResponse (t.accept (some v)) v
  else .held

/-- The three outcomes of R69 in the host's interface, for a step from `s`: held is `s` with the note that it was (log entry 9). -/
def Result.toOutcome (s : State) : Result → Host.Outcome State Fault Refusal
  | .next t => .next t
  | .nextResponse t _ => .next t
  | .held => .next s.hold

/-- RESET (R70): the whole block takes the reset state of R19, whatever happened before; entries written earlier are unspecified
again (R71). What is the host's stays the host's: it may change what it presents (R38, R70), and keeps what it was delivered. -/
def State.applyReset (s : State) (change : Option (List CmdWord)) : State :=
  { State.reset with
    stream := change.getD s.stream
    schedule := s.schedule
    responses := s.responses
    event := .reset
    tick := s.tick
    resets := s.resets + 1 }

/-- The host adds words to the end of its stream: what it wants executed after what it presents already (R38, R78). -/
def State.present (s : State) (ws : List CmdWord) : State := { s with stream := s.stream ++ ws }

/-- The command word at the head of the stream, if the host presents one. -/
def State.presented (s : State) : Option CmdWord := s.stream.head?

end Sys2Proof.Machine
end

