-- ==== Sys2Proof/Machine/Datapath.lean ====
section
/-! DEFINITION. The datapath commands INIT, UPDATE, READ (41_datapath.md rules R50, R51, R52). -/

namespace Sys2Proof.Machine

/-- INIT (R50): CRC <- 0xFFFF; never held; no response. -/
def resultInit (s : State) : Result := offer .init s (s.setCrc Config.seed) none

/-- INIT in the host's interface. -/
def execInit (s : State) : Host.Outcome State Fault Refusal := (resultInit s).toOutcome s

/-- UPDATE (R51): accepted when TV = 1, then CRC <- (CRC >> 8) xor TableRead(index); no response; the byte is not kept. -/
def resultUpdate (b : Byte) (s : State) : Result :=
  offer (.update b) s (s.setCrc (combine s.crc (s.tableRead (tableIndex s.crc b)))) none

/-- UPDATE in the host's interface. -/
def execUpdate (b : Byte) (s : State) : Host.Outcome State Fault Refusal := (resultUpdate b s).toOutcome s

/-- READ (R52): responds CRC and changes nothing; never held. -/
def resultRead (s : State) : Result := offer .read s s (some s.crc)

/-- READ in the host's interface. -/
def execRead (s : State) : Host.Outcome State Fault Refusal := (resultRead s).toOutcome s

end Sys2Proof.Machine
end

