-- ==== Sys2Proof/Machine/TableGenerator.lean ====
section
/-! DEFINITION. The table generator (40_table_generator.md): the command BUILD and the internal step GEN. -/

namespace Sys2Proof.Machine

/-- BUILD (R42): accepted when GBUSY = 0, then TV <- 0, GBUSY <- 1, GI <- 0; CRC and TABLE unchanged, no response. -/
def resultBuild (s : State) : Result := offer .build s s.startBuild none

/-- BUILD in the host's interface. -/
def execBuild (s : State) : Host.Outcome State Fault Refusal := (resultBuild s).toOutcome s

/-- GEN (R43): with GBUSY = 1, TABLE[GI] <- ENTRY(GI) and the counter and, at GI = 255, the flags move on in the same atomic step;
with GBUSY = 0 the generator is idle and does nothing. -/
def State.genStep (s : State) : State :=
  if s.gbusy then
    let t := s.tableWrite s.gi (entry s.gi)
    (if s.gi = 255#8 then t.finishBuild else t.advanceGi).note .gen
  else s.note .waiting

end Sys2Proof.Machine
end

