-- ==== Sys2Proof/Machine/Scheduler.lean ====
section
/-! DEFINITION. Whose turn it is (60_exceptions.md rule R64): "the next step is any one of the enabled steps; the spec fixes no priority". -/

namespace Sys2Proof.Machine

/-- A command is presented and its acceptance condition holds: step (b) of R64 is enabled. -/
def State.commandEnabled (s : State) : Bool :=
  match s.presented with
  | some w => s.ready (decode w)
  | none => false

/-- The turn where the schedule names none: the one enabled step, if only one is; the free choice `Config.genFirst` between GEN and
the command, if both are; the port, which then holds or waits, if none is (R64, R75, R78; log entry 2). -/
def State.freeTurn (s : State) : Turn :=
  if s.gbusy && (!s.commandEnabled || Config.genFirst s.tick) then .gen else .port

/-- Whose turn the next step is: the schedule's choice, and behind it the free one. -/
def State.turn (s : State) : Turn :=
  match s.schedule with
  | t :: _ => t
  | [] => s.freeTurn

/-- The choice is taken: the schedule moves on, and so does the counter behind the free choice. -/
def State.takeTurn (s : State) : State :=
  { s with schedule := s.schedule.tail, tick := s.tick + 1 }

/-- The word `c` presented before everything else of the stream, and the next turn given to the port (log entry 3). -/
def State.presentNext (s : State) (c : CmdWord) : State :=
  { s with stream := c :: s.stream, schedule := .port :: s.schedule }

end Sys2Proof.Machine
end

