-- ==== Sys2Proof/Machine/Step.lean ====
section
/-! DEFINITION. One step of the machine: one atomic state change by one agent (60_exceptions.md rule R64), or, where the agent whose
turn it is has no enabled step, none of the block's (R65, R78). -/

namespace Sys2Proof.Machine

/-- The port's turn: the presented command is decoded and tried; without one the block waits (R38, R78). -/
def portStep (s : State) : Host.Outcome State Fault Refusal :=
  match s.presented with
  | some w => exec (decode w) s
  | none => .next (s.note .waiting)

/-- One step. -/
def step (s : State) : Host.Outcome State Fault Refusal :=
  match s.turn with
  | .gen => .next s.takeTurn.genStep
  | .port => portStep s.takeTurn
  | .reset change => .next (s.takeTurn.applyReset change)

/-- `s` with the command word `w` presented first and the next turn given to the port, so that the next step runs it
(log entry 3). A number that the boundary refuses is not presented (R69). -/
def State.withFetchWord (s : State) (nbits w : Nat) : State :=
  if w < 2 ^ nbits then
    match commandWordOf w with
    | .ok c => s.presentNext c
    | .error _ => s
  else s

end Sys2Proof.Machine
end

