-- ==== Sys2Proof/Machine/Assembler.lean ====
section
/-! DEFINITION. The assembler syntax and the pseudo-operations of 30_encoding.md rule R37: names for sequences of commands, outside the block. -/

namespace Sys2Proof.Machine

/-- The pseudo-operations (R37); `S` is a byte sequence of any length. -/
inductive Pseudo where
  /-- The document's `feed(handle, buffer)`. -/
  | feed (S : List Byte)
  /-- Creating the document's opaque handle. -/
  | new
  /-- The document's `result(handle)`. -/
  | result
  /-- The document's `compute(buffer)`. -/
  | compute (S : List Byte)
  /-- The table builder run at process start. -/
  | startup
  deriving DecidableEq, Repr

/-- The expansion of each pseudo-operation (R37). COMPUTE does not include BUILD. -/
def Pseudo.expand : Pseudo → List Instr
  | .feed S => S.map .update
  | .new => [.init]
  | .result => [.read]
  | .compute S => .init :: S.map .update ++ [.read]
  | .startup => [.build]

/-- The command words of a sequence of commands, as an assembler emits them (R34, R37). -/
def words (is : List Instr) : List CmdWord := is.map encode

/-- The command words of a pseudo-operation. -/
def Pseudo.words (p : Pseudo) : List CmdWord := Sys2Proof.Machine.words p.expand

/-- Why the assembler turns a line away (log entry 7). Safe: the assembler stands outside the block. -/
inductive AsmError where
  /-- The first token of the line names no command and no pseudo-operation. -/
  | unknownMnemonic (token : List Char)
  /-- An operand is no number of the syntax. -/
  | badNumber (token : List Char)
  /-- An operand is a number, but no byte: "`b` in 0..255". -/
  | notAByte (n : Nat)
  /-- Too few or too many operands for the mnemonic. -/
  | operandCount
  deriving DecidableEq, Repr

/-- The tokens of a line: blanks separate, `#` starts a comment, a character between single quotes is one token with its quotes.
The first argument is the token read so far, its last character first. -/
def tokensFrom : List Char → List Char → List (List Char)
  | acc, [] => if acc = [] then [] else [acc.reverse]
  | acc, '\'' :: c :: '\'' :: rest => tokensFrom ('\'' :: c :: '\'' :: acc) rest
  | acc, c :: rest =>
    if c = '#' then (if acc = [] then [] else [acc.reverse])
    else if c = ' ' ∨ c = '\t' ∨ c = '\r' then
      (if acc = [] then tokensFrom [] rest else acc.reverse :: tokensFrom [] rest)
    else tokensFrom (c :: acc) rest

/-- The value of a digit in base 16 or below. -/
def digitValue (base : Nat) (c : Char) : Option Nat :=
  let n := c.toNat
  let v := if 48 ≤ n ∧ n ≤ 57 then n - 48 else if 97 ≤ n ∧ n ≤ 102 then n - 87
    else if 65 ≤ n ∧ n ≤ 70 then n - 55 else base
  if v < base then some v else none

/-- The value of a row of digits, the leftmost first, after the value `acc` read so far. -/
def digitsValue (base : Nat) : Nat → List Char → Option Nat
  | acc, [] => some acc
  | acc, c :: rest => (digitValue base c).bind (fun d => digitsValue base (acc * base + d) rest)

/-- "Numbers are `0x` hexadecimal, decimal, or a character in single quotes meaning its ASCII code" (R37). -/
def numberOf : List Char → Option Nat
  | [] => none
  | ['\'', c, '\''] => if c.toNat < 128 then some c.toNat else none
  | '0' :: 'x' :: d :: rest => digitsValue 16 0 (d :: rest)
  | ds => digitsValue 10 0 ds

/-- An operand `b` in 0..255, refused and never truncated when it is wider (R37, R62). -/
def operandOf (tok : List Char) : Except AsmError Byte :=
  match numberOf tok with
  | none => .error (.badNumber tok)
  | some n =>
    match byteOf n with
    | .ok b => .ok b
    | .error _ => .error (.notAByte n)

/-- All operands of a line, the first error reported. -/
def operandsOf : List (List Char) → Except AsmError (List Byte)
  | [] => .ok []
  | tok :: rest =>
    match operandOf tok, operandsOf rest with
    | .ok b, .ok bs => .ok (b :: bs)
    | .error e, _ => .error e
    | .ok _, .error e => .error e

/-- What a mnemonic with its operands stands for: the four commands and the pseudo-operations of R37, the byte sequence of FEED and
COMPUTE written as its numbers (log entry 7). -/
def commandsOf (name : List Char) (bs : List Byte) : Except AsmError (List Instr) :=
  let alone (is : List Instr) : Except AsmError (List Instr) := if bs = [] then .ok is else .error .operandCount
  if name = ['B', 'U', 'I', 'L', 'D'] then alone [.build]
  else if name = ['I', 'N', 'I', 'T'] then alone [.init]
  else if name = ['R', 'E', 'A', 'D'] then alone [.read]
  else if name = ['U', 'P', 'D', 'A', 'T', 'E'] then
    match bs with
    | [b] => .ok [.update b]
    | _ => .error .operandCount
  else if name = ['N', 'E', 'W'] then alone (Pseudo.expand .new)
  else if name = ['R', 'E', 'S', 'U', 'L', 'T'] then alone (Pseudo.expand .result)
  else if name = ['S', 'T', 'A', 'R', 'T', 'U', 'P'] then alone (Pseudo.expand .startup)
  else if name = ['F', 'E', 'E', 'D'] then .ok (Pseudo.expand (.feed bs))
  else if name = ['C', 'O', 'M', 'P', 'U', 'T', 'E'] then .ok (Pseudo.expand (.compute bs))
  else .error (.unknownMnemonic name)

/-- One line of the assembler: no command for a blank line or a comment (R37). -/
def assembleLine (line : List Char) : Except AsmError (List Instr) :=
  match tokensFrom [] line with
  | [] => .ok []
  | name :: operands =>
    match operandsOf operands with
    | .ok bs => commandsOf name bs
    | .error e => .error e

/-- "One command per line" (R37): the command words of a text given as its lines, the first error reported. -/
def assemble : List (List Char) → Except AsmError (List CmdWord)
  | [] => .ok []
  | line :: rest =>
    match assembleLine line, assemble rest with
    | .ok is, .ok ws => .ok (words is ++ ws)
    | .error e, _ => .error e
    | .ok _, .error e => .error e

end Sys2Proof.Machine
end

