-- ==== Sys2Proof/Machine/Ports.lean ====
section
/-! DEFINITION. The ports of the block as functions of the state (30_encoding.md rules R31, R35, R38, R39).
`clk` is the step itself (R77) and `rst` the schedule's entry `reset` (R70). -/

namespace Sys2Proof.Machine

/-- `cmd_ready` for a word on `cmd`: "a function of the presented word's `op` field and of the flags only" (R38). -/
def State.cmdReady (s : State) (w : CmdWord) : Bool :=
  if opField w = 0b00#2 then !s.gbusy
  else if opField w = 0b01#2 then true
  else if opField w = 0b10#2 then s.tv
  else true

/-- `cmd_valid`: the host presents a word (R31). -/
def State.cmdValid (s : State) : Bool := s.presented.isSome

/-- `rsp`, there exactly when `rsp_valid` is 1: the response the latest step delivered (R31, R35). -/
def State.rsp (s : State) : Option Word :=
  match s.event with
  | .accepted r => r
  | .reset => none
  | .gen => none
  | .held => none
  | .waiting => none

/-- `rsp_valid`: "1 exactly in a step that accepts a READ" (R31). -/
def State.rspValid (s : State) : Bool := s.rsp.isSome

/-- The output `tv` (R39). -/
def State.tvOut (s : State) : Bool := s.tv

/-- The output `gbusy` (R39). -/
def State.gbusyOut (s : State) : Bool := s.gbusy

end Sys2Proof.Machine
end

