-- ==== Sys2Proof/Machine/Results.lean ====
section
/-! DEFINITION. The outcome of each command, and of each step, in the block's own outcome type, which has no fault and no refusal (60_exceptions.md rule R69). -/

namespace Sys2Proof.Machine

/-- The outcome of a command, one of the three of R69. -/
def commandResult (i : Instr) (s : State) : Result :=
  match i with
  | .build => resultBuild s
  | .init => resultInit s
  | .update b => resultUpdate b s
  | .read => resultRead s

/-- The outcome of one step of the block, one of the three of R69: GEN, RESET and a turn with nothing to do never respond and are never held. -/
def stepResult (s : State) : Result :=
  match s.turn with
  | .gen => .next s.takeTurn.genStep
  | .port =>
    match s.presented with
    | some w => commandResult (decode w) s.takeTurn
    | none => .next (s.takeTurn.note .waiting)
  | .reset change => .next (s.takeTurn.applyReset change)

end Sys2Proof.Machine
end

