-- ==== Sys2Proof/Safety.lean ====
section
/-! DEFINITION. The terms the claims are stated in: the invariants of 10_state.md section 9, the stuck state (70_reset_and_hazards.md
rule R75), the end of a run (R78), what two states of the block share, and the block with an atomic BUILD (40_table_generator.md rule R48). -/

namespace Sys2Proof.Machine

/-- The invariants I-1 to I-4 of 10_state.md section 9, the canonical form of the written entries, and R46: GEN writes nothing but ENTRY. -/
structure BlockInv (s : State) : Prop where
  canonical : s.table.wf = true
  notBoth : ¬(s.tv = true ∧ s.gbusy = true)
  idleIndex : s.gbusy = false → s.gi = 0#8
  building : s.gbusy = true → ∀ j : Byte, j < s.gi → s.table.get? j.toNat = some (entry j)
  valid : s.tv = true → ∀ j : Byte, s.table.get? j.toNat = some (entry j)
  written : ∀ (j : Byte) (v : Word), s.table.get? j.toNat = some v → v = entry j

/-- The stuck state (R75): an UPDATE at the head of the stream, no valid table and no build running. -/
def Stuck (s : State) : Prop :=
  (∃ w b, s.presented = some w ∧ decode w = .update b) ∧ s.tv = false ∧ s.gbusy = false

/-- `k` steps of the machine. -/
def run (k : Nat) (s : State) : Host.Outcome State Fault Refusal := Host.Core.run Sys2Proof.core k s

/-- The next step is the acceptance of a BUILD (R42). -/
def AcceptsBuild (s : State) : Prop :=
  s.turn = .port ∧ s.gbusy = false ∧ ∃ w, s.presented = some w ∧ decode w = .build

/-- At the next step the host applies RESET (R70). -/
def AppliesReset (s : State) : Prop := ∃ change, s.turn = .reset change

/-- The end of a run (R78): the stream is exhausted and the generator is idle. -/
def EndOfRun (s : State) : Prop := s.stream = [] ∧ s.gbusy = false

/-- The host applies no RESET in the schedule. -/
def ResetFree (sched : List Turn) : Prop := ∀ t ∈ sched, ∀ change, t ≠ .reset change

/-- The block's own state is the same in both, every entry of TABLE included (R17, R19). -/
structure SameBlock (s t : State) : Prop where
  crc : t.crc = s.crc
  table : ∀ j : Byte, t.tableRead j = s.tableRead j
  tv : t.tv = s.tv
  gbusy : t.gbusy = s.gbusy
  gi : t.gi = s.gi

/-- Both states are the same but for the written entries and what an unwritten one reads as. -/
def SameButTable (s t : State) : Prop :=
  t = { s with table := t.table, resets := t.resets }

/-- `t` is `s` after the acceptance of the command at the head of its stream, as far as the host's channels go:
the stream one word shorter, the response delivered, everything else of the host's as it was. -/
structure Accepted (s t : State) (rsp : Option Word) : Prop where
  stream : t.stream = s.stream.tail
  responses : t.responses = s.responses ++ rsp.toList
  port : t.rsp = rsp
  schedule : t.schedule = s.schedule
  counters : t.tick = s.tick ∧ t.resets = s.resets

/-- The responses of a stream of buffers with a READ after each: the checksum of what was fed so far (R55). -/
def runningChecksums : Word → List (List Byte) → List Word
  | _, [] => []
  | c, S :: rest => fold c S :: runningChecksums (fold c S) rest

/-- The command stream of those buffers: FEED and RESULT for each (R37, R55). -/
def feedAndRead : List (List Byte) → List CmdWord
  | [] => []
  | S :: rest => (Pseudo.feed S).words ++ Pseudo.result.words ++ feedAndRead rest

/-- The block in which BUILD is one atomic transition (R48), seen by its observable state alone: CRC, TV, the responses.
An UPDATE without a table has no next state. -/
structure Abstract where
  crc : Word
  tv : Bool
  responses : List Word
  deriving DecidableEq, Repr

/-- One accepted command of the block with atomic BUILD; UPDATE is the pure function UPD, since the table is ENTRY (R48, R51). -/
def Abstract.run1 (a : Abstract) : Instr → Option Abstract
  | .build => some { a with tv := true }
  | .init => some { a with crc := Config.seed }
  | .update b => if a.tv then some { a with crc := upd a.crc b } else none
  | .read => some { a with responses := a.responses ++ [a.crc] }

/-- A whole command stream on the block with atomic BUILD. -/
def Abstract.run (a : Abstract) : List CmdWord → Option Abstract
  | [] => some a
  | w :: rest => (a.run1 (decode w)).bind (fun b => b.run rest)

/-- What the block with atomic BUILD shows of a state: a running build counts as done (R48). -/
def State.abstract (s : State) : Abstract := ⟨s.crc, s.tv || s.gbusy, s.responses⟩

/-- How many BUILD words a stream holds. -/
def buildCount : List CmdWord → Nat
  | [] => 0
  | w :: rest => (if decode w = .build then 1 else 0) + buildCount rest

/-- No UPDATE stands before the first BUILD: the boot requirement of R72 for a block without a table. -/
def bootsFirst : List CmdWord → Bool
  | [] => true
  | w :: rest =>
    match decode w with
    | .build => true
    | .init => bootsFirst rest
    | .update _ => false
    | .read => bootsFirst rest

/-- The stream respects R72 in this state: the table is there, is being built, or is built before the first UPDATE. -/
def State.bootOk (s : State) : Bool := s.tv || s.gbusy || bootsFirst s.stream

/-- How many steps are left to the end of the run: one per command, 256 per build to come, and the rest of the running build
(70_reset_and_hazards.md section 4, step counts). -/
def State.workLeft (s : State) : Nat :=
  s.stream.length + 256 * buildCount s.stream + (if s.gbusy then 256 - s.gi.toNat else 0)

end Sys2Proof.Machine
end

