-- ==== Sys2Proof/Certificates/Slice0/Obligations.lean ====
section
/-! DEFINITION. The statements about crc16_modbus. Each docstring names the rule of spec/ it formalises; OBLIGATIONS.json lists them. -/

open Sys2Proof Sys2Proof.Machine

/-! ## Encoding -/

/-- Decode and encode agree: every command is well formed, and decoding its canonical word gives it back with its operand, through the
decoder (R33, R34; 95_test_vectors.md section 5), and through the table's numbering in 10 and in 16 bits (the model's choice, log entry 6:
the spec knows no 16-bit form of a command word). -/
def Obligations.DecodeEncodeRoundTrip : Prop :=
  ∀ i : Instr, i.wf = true ∧ decode (encode i) = i ∧
    decodeTableWord 10 (encode i).toNat = some i ∧ decodeTableWord 16 (encode i).toNat = some i

/-- R33: every word belongs to exactly one row of the opcode map, and decodes to that row's command. -/
def Obligations.EveryWordHasOneRow : Prop :=
  ∀ w : CmdWord, opRow (decode w) ∈ opcodeMap ∧ (opRow (decode w)).covers w = true ∧
    (∀ r ∈ opcodeMap, r.covers w = true → r = opRow (decode w)) ∧
    (opField w = 0b00#2 → decode w = .build) ∧ (opField w = 0b01#2 → decode w = .init) ∧
    (opField w = 0b10#2 → decode w = .update (dataField w)) ∧ (opField w = 0b11#2 → decode w = .read)

/-- Words written out from the encoding of R32 and R33 decode to the commands they stand for (95_test_vectors.md section 5). -/
def Obligations.SampleWordsDecode : Prop :=
  decode 0b0000000000#10 = .build ∧ decode 0b0011111111#10 = .build ∧
    decode 0b0100000000#10 = .init ∧ decode 0b0110101010#10 = .init ∧
    decode 0b1000110001#10 = .update 0x31#8 ∧ decode 0b1011111111#10 = .update 0xFF#8 ∧
    decode 0b1100000000#10 = .read ∧ decode 0b1101010101#10 = .read

/-- R34: the operand of UPDATE is its data field, zero-extended; the data field of the other three is ignored; the canonical words. -/
def Obligations.DataFieldOperandOrIgnored : Prop :=
  (∀ d : Byte,
    decode (0b10#2 ++ d : BitVec (2 + 8)) = .update d ∧
    decode (0b00#2 ++ d : BitVec (2 + 8)) = .build ∧
    decode (0b01#2 ++ d : BitVec (2 + 8)) = .init ∧
    decode (0b11#2 ++ d : BitVec (2 + 8)) = .read ∧
    zext16 d = (0x00#8 ++ d : BitVec (8 + 8)) ∧ (zext16 d).toNat = d.toNat ∧
    encode (.update d) = 0x200#10 + d.setWidth 10) ∧
  encode .build = 0x000#10 ∧ encode .init = 0x100#10 ∧ encode .read = 0x300#10

/-- R62, R69: at the boundary a number wider than the port is refused by name and never truncated; one that fits passes unchanged (where
the boundary stands is the model's choice, log entry 6). -/
def Obligations.BoundaryRefusesNeverTruncates : Prop :=
  (∀ w : Nat, (1024 ≤ w → commandWordOf w = .error (.commandTooWide w)) ∧
    (w < 1024 → ∃ c : CmdWord, commandWordOf w = .ok c ∧ c.toNat = w)) ∧
  (∀ b : Nat, (256 ≤ b → byteOf b = .error (.notAByte b)) ∧
    (b < 256 → ∃ x : Byte, byteOf b = .ok x ∧ x.toNat = b)) ∧
  (∀ n w : Nat, decodeTableWord n w = none ↔ 2 ^ n ≤ w ∨ 1024 ≤ w)

/-- R37: the command words each pseudo-operation expands to. -/
def Obligations.PseudoOperationWords : Prop :=
  ∀ S : List Byte,
    (Pseudo.feed S).words = S.map (fun b => 0x200#10 + b.setWidth 10) ∧
    Pseudo.new.words = [0x100#10] ∧ Pseudo.result.words = [0x300#10] ∧ Pseudo.startup.words = [0x000#10] ∧
    (Pseudo.compute S).words = Pseudo.new.words ++ (Pseudo.feed S).words ++ Pseudo.result.words

/-! ## The step -/

/-- R38: at the port's turn a step is the meaning of the decoded presented word, in the state in which the scheduler's choice has been
taken and nothing else has changed; and when the port's turn is (turns are the model's, log entry 2). -/
def Obligations.StepRunsPresentedCommand : Prop :=
  (∀ (s : State) (w : CmdWord), s.turn = .port → s.presented = some w →
    (decode w).wf = true ∧ step s = exec (decode w) s.takeTurn ∧
    s.takeTurn = { s with schedule := s.schedule.tail, tick := s.tick + 1 }) ∧
  (∀ (s : State) (rest : List Turn), s.schedule = .port :: rest → s.turn = .port) ∧
  (∀ s : State, s.schedule = [] → s.gbusy = false → s.turn = .port)

/-- A word placed for fetching runs as the very next step, and placing it changes nothing of the block (log entry 3). -/
def Obligations.PlacedWordRunsNext : Prop :=
  ∀ (s : State) (n w : Nat) (i : Instr), decodeTableWord n w = some i →
    step (s.withFetchWord n w) =
      exec i { s with stream := BitVec.ofNat 10 w :: s.stream, tick := s.tick + 1 }

/-- There is no fault, and every command in every state, and every step, answers a next state (R61). That a held command, a separate
outcome in R69, answers a next state is the model's choice, log entry 9; that a turn without an enabled step does, log entry 2. -/
def Obligations.NothingFaults : Prop :=
  (∀ _f : Fault, False) ∧ (∀ (i : Instr) (s : State), ∃ t, exec i s = .next t) ∧
    (∀ s : State, ∃ t, step s = .next t)

/-- R38: `cmd_ready` from the op field and the flags; a step other than RESET either leaves the stream as it is and does nothing of any
command, or accepts its first word, whole, at the port's turn and only if `cmd_ready` is 1 for it. -/
def Obligations.CommandsAcceptedInOrder : Prop :=
  (∀ (s : State) (w : CmdWord),
    (opField w = 0b00#2 → s.cmdReady w = !s.gbusy) ∧ (opField w = 0b01#2 → s.cmdReady w = true) ∧
    (opField w = 0b10#2 → s.cmdReady w = s.tv) ∧ (opField w = 0b11#2 → s.cmdReady w = true)) ∧
  (∀ s t : State, step s = .next t → ¬AppliesReset s →
    (t.stream = s.stream ∧ t.crc = s.crc ∧ t.responses = s.responses ∧ (s.turn = .port → SameBlock s t)) ∨
    (∃ w rest, s.turn = .port ∧ s.stream = w :: rest ∧ s.cmdReady w = true ∧ t.stream = rest ∧
      exec (decode w) s.takeTurn = .next t))

/-! ## The four commands -/

/-- R42: BUILD with an idle generator is accepted and clears TV, sets GBUSY, sets GI to 0; CRC and every entry of TABLE unchanged, no response. -/
def Obligations.BuildStartsGenerator : Prop :=
  ∀ s : State, s.gbusy = false →
    ∃ t, exec .build s = .next t ∧ t.tv = false ∧ t.gbusy = true ∧ t.gi = 0#8 ∧
      t.crc = s.crc ∧ (∀ j : Byte, t.tableRead j = s.tableRead j) ∧ Accepted s t none

/-- R50: INIT is selected by op = 01b, is accepted in every state, sets CRC to 0xFFFF and changes nothing else of the block; no response. -/
def Obligations.InitLoadsSeed : Prop :=
  (∀ d : Byte, decode (0b01#2 ++ d : BitVec (2 + 8)) = .init) ∧
  (∀ s : State, ∃ t, exec .init s = .next t ∧ t.crc = 0xFFFF#16 ∧
    (∀ j : Byte, t.tableRead j = s.tableRead j) ∧ t.tv = s.tv ∧ t.gbusy = s.gbusy ∧ t.gi = s.gi ∧
    Accepted s t none)

/-- R51: UPDATE is selected by op = 10b; with TV = 1 it is accepted, CRC becomes (CRC >> 8) xor TableRead(index), which is UPD(CRC, byte)
in every state that meets the invariant, and nothing else of the block changes; with TV = 0 it is held and nothing of it happens
(corner case (g); held is a next state, log entry 9). -/
def Obligations.UpdateFoldsByte : Prop :=
  (∀ b : Byte, decode (0b10#2 ++ b : BitVec (2 + 8)) = .update b) ∧
  (∀ (s : State) (b : Byte), s.tv = true →
    ∃ t, exec (.update b) s = .next t ∧
      t.crc = (s.crc >>> 8) ^^^ s.tableRead ((s.crc ^^^ b.setWidth 16).extractLsb' 0 8) ∧
      (BlockInv s → t.crc = upd s.crc b) ∧
      (∀ j : Byte, t.tableRead j = s.tableRead j) ∧ t.tv = s.tv ∧ t.gbusy = s.gbusy ∧ t.gi = s.gi ∧
      Accepted s t none) ∧
  (∀ (s : State) (b : Byte), s.tv = false →
    ∃ t, exec (.update b) s = .next t ∧ SameBlock s t ∧ t.stream = s.stream ∧ t.responses = s.responses) ∧
  (∀ (c : Word) (b : Byte), upd c b = (c >>> 8) ^^^ entry (c.extractLsb' 0 8 ^^^ b))

/-- R52: READ is selected by op = 11b, is accepted in every state, responds CRC as it is at the start of the step and changes nothing of the block. -/
def Obligations.ReadRespondsCrc : Prop :=
  (∀ d : Byte, decode (0b11#2 ++ d : BitVec (2 + 8)) = .read) ∧
  (∀ s : State, ∃ t, exec .read s = .next t ∧ SameBlock s t ∧ Accepted s t (some s.crc))

/-- R65: which commands are held, and that a held command changes nothing, responds nothing and stays at the head of the stream
(held is a next state of the model, log entry 9). -/
def Obligations.HeldCommandChangesNothing : Prop :=
  (∀ (s : State) (i : Instr), s.ready i = false ↔
    (i = .build ∧ s.gbusy = true) ∨ (∃ b, i = .update b) ∧ s.tv = false) ∧
  (∀ (s : State) (i : Instr), s.ready i = false →
    ∃ t, exec i s = .next t ∧ SameBlock s t ∧ t.stream = s.stream ∧ t.responses = s.responses ∧
      t.rspValid = false ∧ t.schedule = s.schedule ∧ t.tick = s.tick ∧ t.resets = s.resets)

/-- The frame of every command, accepted or held: no entry of TABLE changes (R22); CRC changes only by INIT and UPDATE (R10); the flags
and GI only by BUILD (R12, R13, R14); the response channel only by READ (R35). -/
def Obligations.CommandFrame : Prop :=
  ∀ (i : Instr) (s t : State), exec i s = .next t →
    (∀ j : Byte, t.tableRead j = s.tableRead j) ∧ t.table = s.table ∧
    (i ≠ .init → (∀ b, i ≠ .update b) → t.crc = s.crc) ∧
    (i ≠ .build → t.tv = s.tv ∧ t.gbusy = s.gbusy ∧ t.gi = s.gi) ∧
    (i ≠ .read → t.responses = s.responses ∧ t.rspValid = false) ∧
    t.schedule = s.schedule ∧ t.tick = s.tick ∧ t.resets = s.resets

/-- R59: whether and how an UPDATE executes never depends on the byte or on CRC: two UPDATEs in states that differ only in CRC leave states
that differ only in CRC, and `cmd_ready` for an UPDATE is TV (that a held UPDATE answers a next state is the model's choice, log entry 9). -/
def Obligations.UpdateControlIgnoresData : Prop :=
  (∀ (s : State) (b b' : Byte) (c' : Word), ∃ t x,
    exec (.update b) s = .next t ∧ exec (.update b') { s with crc := c' } = .next { t with crc := x }) ∧
  (∀ (s : State) (b : Byte), s.cmdReady (encode (.update b)) = s.tv)

/-- R69, R65: a command has one of three outcomes, with no fault and no refusal among them: held, in exactly the cases of R69; the next
state with the response CRC, for READ alone; the next state without one; and so has a step. `exec` and `step` are that outcome in the host's interface, where held is a
next state (the model's choice, log entry 9), and neither of them ever gives the refusal that the interface has (log entry 11). -/
def Obligations.ThreeOutcomesOnly : Prop :=
  (∀ (i : Instr) (s : State),
    exec i s = (commandResult i s).toOutcome s ∧
    (commandResult i s = .held ↔ (i = .build ∧ s.gbusy = true) ∨ (∃ b, i = .update b) ∧ s.tv = false) ∧
    ((∃ t v, commandResult i s = .nextResponse t v) ↔ i = .read) ∧
    (∀ t v, commandResult i s = .nextResponse t v → v = s.crc ∧ exec i s = .next t ∧ t.rsp = some v) ∧
    (∀ t, commandResult i s = .next t → exec i s = .next t ∧ t.rsp = none) ∧
    (∀ r, exec i s ≠ .refused r)) ∧
  (∀ s : State, step s = (stepResult s).toOutcome s.takeTurn ∧
    ((∃ t v, stepResult s = .nextResponse t v) ↔ s.turn = .port ∧ ∃ w, s.presented = some w ∧ decode w = .read) ∧
    (stepResult s = .held ↔ s.turn = .port ∧ ∃ w, s.presented = some w ∧ s.ready (decode w) = false) ∧
    (∀ r, step s ≠ .refused r))

/-! ## GEN, TABLE and RESET -/

/-- R43: GEN with GBUSY = 1 writes ENTRY(GI) to TABLE[GI] and moves GI on, and at GI = 255 clears GI and GBUSY and sets TV in the same
step; with GBUSY = 0 it does nothing; CRC, every other entry and the host's channels unchanged; it can be scheduled in every state
(R43 enables GEN exactly when GBUSY = 1: turns, and an idle GEN as a step that does nothing, are the model's choice, log entry 2). -/
def Obligations.GenWritesOneEntry : Prop :=
  (∀ (s : State) (rest : List Turn), ({ s with schedule := .gen :: rest } : State).turn = .gen) ∧
  (∀ s : State, s.turn = .gen →
    ∃ t, step s = .next t ∧ t.crc = s.crc ∧ t.stream = s.stream ∧ t.responses = s.responses ∧ t.rspValid = false ∧
      (s.gbusy = true → t.tableRead s.gi = entry s.gi ∧ (∀ j : Byte, j ≠ s.gi → t.tableRead j = s.tableRead j) ∧
        (s.gi = 255#8 → t.gi = 0#8 ∧ t.gbusy = false ∧ t.tv = true) ∧
        (s.gi ≠ 255#8 → t.gi.toNat = s.gi.toNat + 1 ∧ t.gbusy = true ∧ t.tv = s.tv)) ∧
      (s.gbusy = false → SameBlock s t))

/-- R21: TableWrite replaces one entry and changes no other; TableRead has no effect (it is a function of the state). -/
def Obligations.TableReadAfterWrite : Prop :=
  ∀ (s : State) (i : Byte) (v : Word),
    (s.tableWrite i v).tableRead i = v ∧ (∀ j : Byte, j ≠ i → (s.tableWrite i v).tableRead j = s.tableRead j) ∧
    s.tableWrite i v = { s with table := (s.tableWrite i v).table }

/-- R29: no entry changes while TV = 1; the only writer is GEN with GBUSY = 1, which excludes TV = 1; an accepted BUILD clears TV first;
GEN rewrites a written entry with the value it has; so every entry read while TV = 1 is ENTRY of its index. -/
def Obligations.TableConstantWhileValid : Prop :=
  (∀ s t : State, BlockInv s → s.tv = true → step s = .next t → ¬AppliesReset s →
    ∀ j : Byte, t.tableRead j = s.tableRead j) ∧
  (∀ (s t : State) (j : Byte), step s = .next t → t.tableRead j ≠ s.tableRead j →
    AppliesReset s ∨ (s.turn = .gen ∧ s.gbusy = true)) ∧
  (∀ s t : State, step s = .next t → AcceptsBuild s → t.tv = false) ∧
  (∀ s : State, BlockInv s → s.gbusy = true → s.tv = false) ∧
  (∀ (s t : State) (j : Byte) (v : Word), BlockInv s → step s = .next t → ¬AppliesReset s →
    s.table.get? j.toNat = some v → t.tableRead j = v) ∧
  (∀ s : State, BlockInv s → s.tv = true → ∀ j : Byte, s.tableRead j = entry j)

/-- R12, R13, R14: exactly what sets and clears TV and GBUSY, and every move of GI, over one step of the machine. -/
def Obligations.FlagAndIndexTransitions : Prop :=
  ∀ s t : State, step s = .next t →
    (t.tv = true ↔ (s.turn = .gen ∧ s.gbusy = true ∧ s.gi = 255#8) ∨
      (s.tv = true ∧ ¬AcceptsBuild s ∧ ¬AppliesReset s)) ∧
    (t.gbusy = true ↔ AcceptsBuild s ∨
      (s.gbusy = true ∧ ¬(s.turn = .gen ∧ s.gi = 255#8) ∧ ¬AppliesReset s)) ∧
    (AcceptsBuild s ∨ AppliesReset s → t.gi = 0#8) ∧
    (s.turn = .gen → s.gbusy = true → t.gi = s.gi + 1#8) ∧
    (¬AcceptsBuild s → ¬AppliesReset s → ¬(s.turn = .gen ∧ s.gbusy = true) → t.gi = s.gi)

/-- R10: CRC changes in no step but the acceptance of an INIT or an UPDATE, and RESET. -/
def Obligations.OnlyInitUpdateResetWriteCrc : Prop :=
  ∀ s t : State, step s = .next t → t.crc ≠ s.crc →
    AppliesReset s ∨ (s.turn = .port ∧ ∃ w, s.presented = some w ∧
      (decode w = .init ∨ (∃ b, decode w = .update b) ∧ s.tv = true))

/-- R35: a response is delivered in exactly the steps that accept a READ, and it is CRC at the start of the step. -/
def Obligations.ResponseExactlyOnRead : Prop :=
  ∀ s t : State, step s = .next t →
    (t.rspValid = true ↔ s.turn = .port ∧ ∃ w, s.presented = some w ∧ decode w = .read) ∧
    (t.rspValid = true → t.rsp = some s.crc ∧ t.responses = s.responses ++ [s.crc]) ∧
    (t.rspValid = false → t.rsp = none ∧ t.responses = s.responses)

/-- R19: the reset values; each entry is unspecified (a free value of the index and of the RESET it follows); and in a step from TV = 0 the
contents of the table never influence CRC, a response or a status output (the free value is the model's form of "unspecified", log entry 1). -/
def Obligations.ResetStateValues : Prop :=
  (State.reset.crc = 0xFFFF#16 ∧ State.reset.tv = false ∧ State.reset.gbusy = false ∧ State.reset.gi = 0#8 ∧
    ∀ j : Byte, State.reset.tableRead j = Config.unspecifiedEntry State.reset.resets j) ∧
  (∀ s s' t : State, s.tv = false → SameButTable s s' → step s = .next t →
    ∃ t', step s' = .next t' ∧ SameButTable t t')

/-- R70: RESET can be applied in every state; it leaves the reset values whatever the state was, delivers no response, and leaves what is
presented to the host, which may change it (log entry 8; the free value of an entry, log entry 1). -/
def Obligations.ResetFromAnyState : Prop :=
  (∀ (s : State) (change : Option (List CmdWord)) (rest : List Turn),
    ({ s with schedule := .reset change :: rest } : State).turn = .reset change) ∧
  (∀ (s : State) (change : Option (List CmdWord)), s.turn = .reset change →
    ∃ t, step s = .next t ∧ t.crc = 0xFFFF#16 ∧ t.tv = false ∧ t.gbusy = false ∧ t.gi = 0#8 ∧
      (∀ j : Byte, t.tableRead j = Config.unspecifiedEntry (s.resets + 1) j) ∧
      t.rspValid = false ∧ t.responses = s.responses ∧ t.stream = change.getD s.stream)

/-- R71, R12: after a RESET in the middle of a build, and in general without a table and a build, no table comes to be until a BUILD is
accepted: with no BUILD in the stream and no RESET, TV and GBUSY stay 0 and no entry is written. -/
def Obligations.NoTableWithoutBuild : Prop :=
  ∀ (k : Nat) (s t : State), s.tv = false → s.gbusy = false → ResetFree s.schedule →
    (∀ w ∈ s.stream, decode w ≠ .build) → run k s = .next t →
    t.tv = false ∧ t.gbusy = false ∧ t.table = s.table ∧ t.resets = s.resets

/-! ## Invariants -/

/-- The invariant holds at reset (R19). -/
def Obligations.ResetMeetsInvariant : Prop := BlockInv State.reset

/-- R44 and the invariants I-1 to I-4 of 10_state.md section 9: every step keeps them, from every state that meets them. -/
def Obligations.EveryStepKeepsInvariant : Prop :=
  ∀ s t : State, BlockInv s → step s = .next t → BlockInv t

/-- R13, R45: a running build only advances: in a step other than RESET it either goes on, with TV = 0 and GI as it was or one further, or
ends, at GI = 255, with (TV, GBUSY, GI) = (1, 0, 0). -/
def Obligations.RunningBuildOnlyAdvances : Prop :=
  ∀ s t : State, BlockInv s → s.gbusy = true → step s = .next t → ¬AppliesReset s →
    (t.gbusy = true ∧ t.tv = false ∧ (t.gi = s.gi ∨ t.gi.toNat = s.gi.toNat + 1)) ∨
    (s.gi = 255#8 ∧ s.turn = .gen ∧ t.tv = true ∧ t.gbusy = false ∧ t.gi = 0#8)

/-- R45: an accepted BUILD and then 256 GEN steps end with (TV, GBUSY, GI) = (1, 0, 0) and every entry ENTRY of its index; after fewer GEN
steps, n of them, (TV, GBUSY, GI) = (0, 1, n) and the first n entries are written; CRC is untouched. -/
def Obligations.BuildIs256GenSteps : Prop :=
  ∀ (s : State) (w : CmdWord) (rest : List CmdWord) (n : Nat) (later : List Turn),
    s.gbusy = false → s.stream = w :: rest → decode w = .build →
    s.schedule = .port :: (List.replicate n .gen ++ later) → n ≤ 256 →
    ∃ t, run (n + 1) s = .next t ∧ t.crc = s.crc ∧ t.stream = rest ∧ t.responses = s.responses ∧ t.schedule = later ∧
      (∀ j : Byte, j.toNat < n → t.tableRead j = entry j) ∧
      (n < 256 → t.tv = false ∧ t.gbusy = true ∧ t.gi.toNat = n) ∧
      (n = 256 → t.tv = true ∧ t.gbusy = false ∧ t.gi = 0#8)

/-! ## Scheduling -/

/-- R64: with a build running, the only commands that can be enabled are INIT and READ; each commutes with GEN, but for the note of which
step came last. -/
def Obligations.CoEnabledStepsCommute : Prop :=
  (∀ (s : State) (i : Instr), BlockInv s → s.gbusy = true → s.ready i = true → i = .init ∨ i = .read) ∧
  (∀ (s : State) (i : Instr), i = .init ∨ i = .read →
    ∃ t u, exec i s = .next t ∧ exec i s.genStep = .next u ∧ t.genStep = { u with event := t.genStep.event })

/-- R64, R58: any two schedules without RESET under which the same command stream runs to its end give the same responses and the same
final CRC, TABLE, TV, GBUSY and GI. -/
def Obligations.ScheduleNeverChangesResult : Prop :=
  ∀ (s t u : State) (sched sched' : List Turn) (k k' : Nat), BlockInv s → ResetFree sched → ResetFree sched' →
    run k { s with schedule := sched } = .next t → run k' { s with schedule := sched' } = .next u →
    EndOfRun t → EndOfRun u → t.responses = u.responses ∧ SameBlock t u

/-- R48: the block refines the block with an atomic BUILD: whatever the schedule, without RESET, what a run shows (CRC, the responses, the
table valid or being built) is what the commands consumed so far do there. -/
def Obligations.RefinesAtomicBuild : Prop :=
  ∀ (k : Nat) (s t : State), BlockInv s → ResetFree s.schedule → run k s = .next t →
    ∃ done, s.stream = done ++ t.stream ∧ s.abstract.run done = some t.abstract

/-- R72, R77, R78: a stream that respects the boot requirement is consumed and the generator comes to rest, whatever the free choices, in
exactly one step per command and 256 per build; the result is that of the block with atomic BUILD (the free choice takes an enabled step
whenever there is one, the model's choice, log entry 2). -/
def Obligations.BootedStreamCompletes : Prop :=
  ∀ s : State, BlockInv s → s.schedule = [] → s.bootOk = true →
    ∃ t, run s.workLeft s = .next t ∧ EndOfRun t ∧ s.abstract.run s.stream = some t.abstract

/-- R75: with an UPDATE at the head, no table and no build, nothing moves for ever unless the host applies RESET, after which the same
stream is stuck again; and in no other state is a presented command held with the generator idle. (In the spec no step is enabled
there: that a run has steps in a stuck state is the model's choice, log entries 9 and 2.) -/
def Obligations.StuckUntilReset : Prop :=
  (∀ (k : Nat) (s : State), Stuck s → ResetFree s.schedule →
    ∃ t, run k s = .next t ∧ Stuck t ∧ SameBlock s t ∧ t.stream = s.stream ∧ t.responses = s.responses) ∧
  (∀ s t : State, Stuck s → s.turn = .reset none → step s = .next t → Stuck t) ∧
  (∀ s : State, s.stream ≠ [] → s.gbusy = false → s.commandEnabled = false → Stuck s)

/-- R78: after the end of a run the block simply waits (that waiting is a step that answers a next state is the model's choice, log
entry 2). -/
def Obligations.EndedRunWaits : Prop :=
  ∀ (k : Nat) (s : State), EndOfRun s → ResetFree s.schedule →
    ∃ t, run k s = .next t ∧ EndOfRun t ∧ SameBlock s t ∧ t.responses = s.responses

/-- R73, R74: with nothing scheduled, a held UPDATE or BUILD stays at the head until the running build has ended, and is accepted in the
next step: the UPDATE with its effect, the BUILD as the start of a second complete build (the free choices are the model's, log entry 2). -/
def Obligations.HeldCommandRunsAfterBuild : Prop :=
  (∀ (s : State) (w : CmdWord) (b : Byte) (rest : List CmdWord), BlockInv s → s.gbusy = true → s.schedule = [] →
    s.stream = w :: rest → decode w = .update b →
    ∃ t u, run (256 - s.gi.toNat) s = .next t ∧ t.tv = true ∧ t.stream = s.stream ∧ t.crc = s.crc ∧
      step t = .next u ∧ u.crc = upd s.crc b ∧ u.stream = rest) ∧
  (∀ (s : State) (w : CmdWord), BlockInv s → s.gbusy = true → s.schedule = [] → s.stream = [w] → decode w = .build →
    ∃ t u v, run (256 - s.gi.toNat) s = .next t ∧ t.tv = true ∧ t.stream = s.stream ∧
      step t = .next u ∧ u.tv = false ∧ u.gbusy = true ∧ u.gi = 0#8 ∧ u.stream = [] ∧
      run 256 u = .next v ∧ v.tv = true ∧ v.gbusy = false ∧ v.crc = s.crc ∧ ∀ j : Byte, v.tableRead j = entry j)

/-! ## What cannot be observed -/

/-- R19, R46: whatever the unwritten entries hold, and whatever was written before, no run shows it: two states that meet the invariant
and differ only in the table stay so (the free value of an unwritten entry: log entry 1). -/
def Obligations.TableContentsNeverObserved : Prop :=
  ∀ (k : Nat) (s s' t : State), BlockInv s → BlockInv s' → SameButTable s s' → run k s = .next t →
    ∃ t', run k s' = .next t' ∧ SameButTable t t'

/-- R58: with an INIT presented, nothing of the earlier computation outlives its acceptance: runs from two values of CRC differ in CRC alone, and not even
there once the stream has moved. -/
def Obligations.InitForgetsEarlierCrc : Prop :=
  ∀ (k : Nat) (s t : State) (c : Word) (w : CmdWord), s.presented = some w → decode w = .init →
    run k s = .next t →
    ∃ x, run k { s with crc := c } = .next { t with crc := x } ∧ (t.stream ≠ s.stream → x = t.crc)

/-! ## The pure functions and the computations -/

/-- R40: BITSTEP, its linearity over XOR, its value at 0 and the rule's examples. -/
def Obligations.BitstepRule : Prop :=
  (∀ w : Word, bitstep w = if w.getLsbD 0 then (w >>> 1) ^^^ 0xA001#16 else w >>> 1) ∧
  (∀ a b : Word, bitstep (a ^^^ b) = bitstep a ^^^ bitstep b) ∧
  bitstep 0x0000#16 = 0x0000#16 ∧ bitstep 0x0001#16 = 0xA001#16 ∧ bitstep 0x0002#16 = 0x0001#16 ∧
  bitstep 0x0003#16 = 0xA000#16 ∧ bitstep 0x8000#16 = 0x4000#16 ∧ bitstep 0xFFFF#16 = 0xDFFE#16

/-- R41: ENTRY is eight BITSTEPs of the zero-extended index; it is linear over XOR; its values at 0 and at the powers of two; the 256
values are pairwise distinct. -/
def Obligations.EntryRule : Prop :=
  (∀ v : Byte, entry v =
    bitstep (bitstep (bitstep (bitstep (bitstep (bitstep (bitstep (bitstep (v.setWidth 16))))))))) ∧
  (∀ a b : Byte, entry (a ^^^ b) = entry a ^^^ entry b) ∧
  (∀ a b : Byte, entry a = entry b → a = b) ∧
  entry 0x00#8 = 0x0000#16 ∧ entry 0x01#8 = 0xC0C1#16 ∧ entry 0x02#8 = 0xC181#16 ∧ entry 0x04#8 = 0xC301#16 ∧
  entry 0x08#8 = 0xC601#16 ∧ entry 0x10#8 = 0xCC01#16 ∧ entry 0x20#8 = 0xD801#16 ∧ entry 0x40#8 = 0xF001#16 ∧
  entry 0x80#8 = 0xA001#16

/-- R57: one table update is eight bit-serial steps of (c xor zext_16(b)). -/
def Obligations.UpdIsEightBitsteps : Prop :=
  ∀ (c : Word) (b : Byte), upd c b = bitsteps 8 (c ^^^ zext16 b)

/-- 41_datapath.md section 6: UPD depends on the byte only through c[7:0] xor b, and is linear over XOR in the pair. -/
def Obligations.UpdLinearOverXor : Prop :=
  (∀ (c : Word) (b b' : Byte) (e : Word), lowByte c ^^^ b = lowByte e ^^^ b' → c >>> 8 = e >>> 8 → upd c b = upd e b') ∧
  (∀ (c d : Word) (a b : Byte), upd (c ^^^ d) (a ^^^ b) = upd c a ^^^ upd d b)

/-- 41_datapath.md section 6: for a fixed byte UPD is a bijection on 16-bit values. -/
def Obligations.UpdBijectivePerByte : Prop :=
  ∀ b : Byte, (∀ c d : Word, upd c b = upd d b → c = d) ∧ (∀ e : Word, ∃ c : Word, upd c b = e)

/-- 41_datapath.md section 6: a message followed by its own checksum, low byte first, leaves 0x0000; and the zero register stays zero on
zero bytes. -/
def Obligations.SelfCheckLeavesZero : Prop :=
  (∀ c : Word, upd (upd c (lowByte c)) (highByte c) = 0x0000#16) ∧
  (∀ S : List Byte, compute (S ++ [lowByte (compute S), highByte (compute S)]) = 0x0000#16) ∧
  (∀ n : Nat, fold 0x0000#16 (List.replicate n 0x00#8) = 0x0000#16)

/-- R56: chunking invariance, for two chunks and for any partition; and READ, BUILD and GEN do not change CRC. -/
def Obligations.ChunkingInvariance : Prop :=
  (∀ (c : Word) (S T : List Byte), fold c (S ++ T) = fold (fold c S) T) ∧
  (∀ (c : Word) (chunks : List (List Byte)), chunks.foldl fold c = fold c chunks.flatten) ∧
  (∀ s t : State, exec .read s = .next t → t.crc = s.crc) ∧
  (∀ s t : State, exec .build s = .next t → t.crc = s.crc) ∧
  (∀ s t : State, s.turn = .gen → step s = .next t → t.crc = s.crc)

/-- R53: FOLD, and FEED S from a state with TV = 1: CRC becomes FOLD(CRC, S) and everything else of the block is unchanged. -/
def Obligations.FeedFoldsBytes : Prop :=
  (∀ c : Word, fold c [] = c) ∧ (∀ (c : Word) (b : Byte) (S : List Byte), fold c (b :: S) = fold (upd c b) S) ∧
  (∀ (s : State) (S : List Byte) (rest : List CmdWord) (later : List Turn), BlockInv s → s.tv = true →
    s.stream = (Pseudo.feed S).words ++ rest → s.schedule = List.replicate S.length .port ++ later →
    ∃ t, run S.length s = .next t ∧ SameBlock { s with crc := fold s.crc S } t ∧
      t.stream = rest ∧ t.responses = s.responses ∧ t.schedule = later)

/-- R54: COMPUTE S from any state with TV = 1 responds FOLD(0xFFFF, S), whatever CRC was, and leaves it in CRC. -/
def Obligations.ComputeRespondsChecksum : Prop :=
  ∀ (s : State) (S : List Byte) (rest : List CmdWord) (later : List Turn), BlockInv s → s.tv = true →
    s.stream = (Pseudo.compute S).words ++ rest → s.schedule = List.replicate (S.length + 2) .port ++ later →
    ∃ t, run (S.length + 2) s = .next t ∧ t.rsp = some (fold 0xFFFF#16 S) ∧
      t.responses = s.responses ++ [fold 0xFFFF#16 S] ∧ t.crc = fold 0xFFFF#16 S ∧ t.stream = rest ∧ t.schedule = later

/-- R60: COMPUTE of the empty sequence is INIT and READ and responds 0xFFFF in every state, with or without a table; FEED of it is nothing. -/
def Obligations.EmptyBufferRespondsSeed : Prop :=
  (Pseudo.compute []).words = [encode .init, encode .read] ∧ (Pseudo.feed []).words = [] ∧
  (∀ (s : State) (rest : List CmdWord) (later : List Turn),
    s.stream = (Pseudo.compute []).words ++ rest → s.schedule = .port :: .port :: later →
    ∃ t, run 2 s = .next t ∧ t.responses = s.responses ++ [0xFFFF#16] ∧ t.crc = 0xFFFF#16 ∧ t.stream = rest)

/-- R55: NEW, then buffers each followed by RESULT: every RESULT responds the checksum of all that was fed so far, and disturbs nothing. -/
def Obligations.StreamingRespondsRunningChecksums : Prop :=
  Pseudo.new.expand = [.init] ∧ Pseudo.result.expand = [.read] ∧
  (∀ (s : State) (chunks : List (List Byte)) (rest : List CmdWord) (later : List Turn), BlockInv s → s.tv = true →
    s.stream = Pseudo.new.words ++ feedAndRead chunks ++ rest →
    s.schedule = List.replicate (1 + (feedAndRead chunks).length) .port ++ later →
    ∃ t, run (1 + (feedAndRead chunks).length) s = .next t ∧
      t.responses = s.responses ++ runningChecksums 0xFFFF#16 chunks ∧
      t.crc = fold 0xFFFF#16 chunks.flatten ∧ t.stream = rest ∧ t.schedule = later)

/-- R76: a BUILD in the middle of a computation does not change its result: under every schedule without RESET that runs the stream to its
end, and under the free choices, which do (that they take an enabled step whenever there is one is the model's choice, log entry 2). -/
def Obligations.RebuildKeepsComputation : Prop :=
  ∀ (s : State) (S T : List Byte), BlockInv s → s.tv = true →
    s.stream = [encode .init] ++ (Pseudo.feed S).words ++ [encode .build] ++ (Pseudo.feed T).words ++ [encode .read] →
    (∀ (k : Nat) (t : State), ResetFree s.schedule → run k s = .next t → EndOfRun t →
      t.responses = s.responses ++ [fold 0xFFFF#16 (S ++ T)]) ∧
    (s.schedule = [] → ∃ k t, run k s = .next t ∧ EndOfRun t)
end

