-- ==== Sys2Proof/Laws/State.lean ====
section
/-! SUPPORT. One lemma per field per update of State, so that no proof unfolds a record update. -/

namespace Sys2Proof.Machine

@[simp] theorem State.startBuild_crc (s : State) : (s.startBuild).crc = s.crc := rfl
@[simp] theorem State.startBuild_table (s : State) : (s.startBuild).table = s.table := rfl
@[simp] theorem State.startBuild_tv (s : State) : (s.startBuild).tv = false := rfl
@[simp] theorem State.startBuild_gbusy (s : State) : (s.startBuild).gbusy = true := rfl
@[simp] theorem State.startBuild_gi (s : State) : (s.startBuild).gi = 0#8 := rfl
@[simp] theorem State.startBuild_stream (s : State) : (s.startBuild).stream = s.stream := rfl
@[simp] theorem State.startBuild_schedule (s : State) : (s.startBuild).schedule = s.schedule := rfl
@[simp] theorem State.startBuild_responses (s : State) : (s.startBuild).responses = s.responses := rfl
@[simp] theorem State.startBuild_event (s : State) : (s.startBuild).event = s.event := rfl
@[simp] theorem State.startBuild_tick (s : State) : (s.startBuild).tick = s.tick := rfl
@[simp] theorem State.startBuild_resets (s : State) : (s.startBuild).resets = s.resets := rfl

@[simp] theorem State.finishBuild_crc (s : State) : (s.finishBuild).crc = s.crc := rfl
@[simp] theorem State.finishBuild_table (s : State) : (s.finishBuild).table = s.table := rfl
@[simp] theorem State.finishBuild_tv (s : State) : (s.finishBuild).tv = true := rfl
@[simp] theorem State.finishBuild_gbusy (s : State) : (s.finishBuild).gbusy = false := rfl
@[simp] theorem State.finishBuild_gi (s : State) : (s.finishBuild).gi = 0#8 := rfl
@[simp] theorem State.finishBuild_stream (s : State) : (s.finishBuild).stream = s.stream := rfl
@[simp] theorem State.finishBuild_schedule (s : State) : (s.finishBuild).schedule = s.schedule := rfl
@[simp] theorem State.finishBuild_responses (s : State) : (s.finishBuild).responses = s.responses := rfl
@[simp] theorem State.finishBuild_event (s : State) : (s.finishBuild).event = s.event := rfl
@[simp] theorem State.finishBuild_tick (s : State) : (s.finishBuild).tick = s.tick := rfl
@[simp] theorem State.finishBuild_resets (s : State) : (s.finishBuild).resets = s.resets := rfl

@[simp] theorem State.advanceGi_crc (s : State) : (s.advanceGi).crc = s.crc := rfl
@[simp] theorem State.advanceGi_table (s : State) : (s.advanceGi).table = s.table := rfl
@[simp] theorem State.advanceGi_tv (s : State) : (s.advanceGi).tv = s.tv := rfl
@[simp] theorem State.advanceGi_gbusy (s : State) : (s.advanceGi).gbusy = s.gbusy := rfl
@[simp] theorem State.advanceGi_gi (s : State) : (s.advanceGi).gi = s.gi + 1#8 := rfl
@[simp] theorem State.advanceGi_stream (s : State) : (s.advanceGi).stream = s.stream := rfl
@[simp] theorem State.advanceGi_schedule (s : State) : (s.advanceGi).schedule = s.schedule := rfl
@[simp] theorem State.advanceGi_responses (s : State) : (s.advanceGi).responses = s.responses := rfl
@[simp] theorem State.advanceGi_event (s : State) : (s.advanceGi).event = s.event := rfl
@[simp] theorem State.advanceGi_tick (s : State) : (s.advanceGi).tick = s.tick := rfl
@[simp] theorem State.advanceGi_resets (s : State) : (s.advanceGi).resets = s.resets := rfl

@[simp] theorem State.setCrc_crc (s : State) (v : Word) : (s.setCrc v).crc = v := rfl
@[simp] theorem State.setCrc_table (s : State) (v : Word) : (s.setCrc v).table = s.table := rfl
@[simp] theorem State.setCrc_tv (s : State) (v : Word) : (s.setCrc v).tv = s.tv := rfl
@[simp] theorem State.setCrc_gbusy (s : State) (v : Word) : (s.setCrc v).gbusy = s.gbusy := rfl
@[simp] theorem State.setCrc_gi (s : State) (v : Word) : (s.setCrc v).gi = s.gi := rfl
@[simp] theorem State.setCrc_stream (s : State) (v : Word) : (s.setCrc v).stream = s.stream := rfl
@[simp] theorem State.setCrc_schedule (s : State) (v : Word) : (s.setCrc v).schedule = s.schedule := rfl
@[simp] theorem State.setCrc_responses (s : State) (v : Word) : (s.setCrc v).responses = s.responses := rfl
@[simp] theorem State.setCrc_event (s : State) (v : Word) : (s.setCrc v).event = s.event := rfl
@[simp] theorem State.setCrc_tick (s : State) (v : Word) : (s.setCrc v).tick = s.tick := rfl
@[simp] theorem State.setCrc_resets (s : State) (v : Word) : (s.setCrc v).resets = s.resets := rfl

@[simp] theorem State.tableWrite_crc (s : State) (i : Byte) (v : Word) : (s.tableWrite i v).crc = s.crc := rfl
@[simp] theorem State.tableWrite_table (s : State) (i : Byte) (v : Word) : (s.tableWrite i v).table = s.table.put i.toNat v := rfl
@[simp] theorem State.tableWrite_tv (s : State) (i : Byte) (v : Word) : (s.tableWrite i v).tv = s.tv := rfl
@[simp] theorem State.tableWrite_gbusy (s : State) (i : Byte) (v : Word) : (s.tableWrite i v).gbusy = s.gbusy := rfl
@[simp] theorem State.tableWrite_gi (s : State) (i : Byte) (v : Word) : (s.tableWrite i v).gi = s.gi := rfl
@[simp] theorem State.tableWrite_stream (s : State) (i : Byte) (v : Word) : (s.tableWrite i v).stream = s.stream := rfl
@[simp] theorem State.tableWrite_schedule (s : State) (i : Byte) (v : Word) : (s.tableWrite i v).schedule = s.schedule := rfl
@[simp] theorem State.tableWrite_responses (s : State) (i : Byte) (v : Word) : (s.tableWrite i v).responses = s.responses := rfl
@[simp] theorem State.tableWrite_event (s : State) (i : Byte) (v : Word) : (s.tableWrite i v).event = s.event := rfl
@[simp] theorem State.tableWrite_tick (s : State) (i : Byte) (v : Word) : (s.tableWrite i v).tick = s.tick := rfl
@[simp] theorem State.tableWrite_resets (s : State) (i : Byte) (v : Word) : (s.tableWrite i v).resets = s.resets := rfl

@[simp] theorem State.note_crc (s : State) (e : Event) : (s.note e).crc = s.crc := rfl
@[simp] theorem State.note_table (s : State) (e : Event) : (s.note e).table = s.table := rfl
@[simp] theorem State.note_tv (s : State) (e : Event) : (s.note e).tv = s.tv := rfl
@[simp] theorem State.note_gbusy (s : State) (e : Event) : (s.note e).gbusy = s.gbusy := rfl
@[simp] theorem State.note_gi (s : State) (e : Event) : (s.note e).gi = s.gi := rfl
@[simp] theorem State.note_stream (s : State) (e : Event) : (s.note e).stream = s.stream := rfl
@[simp] theorem State.note_schedule (s : State) (e : Event) : (s.note e).schedule = s.schedule := rfl
@[simp] theorem State.note_responses (s : State) (e : Event) : (s.note e).responses = s.responses := rfl
@[simp] theorem State.note_event (s : State) (e : Event) : (s.note e).event = e := rfl
@[simp] theorem State.note_tick (s : State) (e : Event) : (s.note e).tick = s.tick := rfl
@[simp] theorem State.note_resets (s : State) (e : Event) : (s.note e).resets = s.resets := rfl

@[simp] theorem State.hold_crc (s : State) : (s.hold).crc = s.crc := rfl
@[simp] theorem State.hold_table (s : State) : (s.hold).table = s.table := rfl
@[simp] theorem State.hold_tv (s : State) : (s.hold).tv = s.tv := rfl
@[simp] theorem State.hold_gbusy (s : State) : (s.hold).gbusy = s.gbusy := rfl
@[simp] theorem State.hold_gi (s : State) : (s.hold).gi = s.gi := rfl
@[simp] theorem State.hold_stream (s : State) : (s.hold).stream = s.stream := rfl
@[simp] theorem State.hold_schedule (s : State) : (s.hold).schedule = s.schedule := rfl
@[simp] theorem State.hold_responses (s : State) : (s.hold).responses = s.responses := rfl
@[simp] theorem State.hold_event (s : State) : (s.hold).event = .held := rfl
@[simp] theorem State.hold_tick (s : State) : (s.hold).tick = s.tick := rfl
@[simp] theorem State.hold_resets (s : State) : (s.hold).resets = s.resets := rfl

@[simp] theorem State.accept_crc (s : State) (r : Option Word) : (s.accept r).crc = s.crc := rfl
@[simp] theorem State.accept_table (s : State) (r : Option Word) : (s.accept r).table = s.table := rfl
@[simp] theorem State.accept_tv (s : State) (r : Option Word) : (s.accept r).tv = s.tv := rfl
@[simp] theorem State.accept_gbusy (s : State) (r : Option Word) : (s.accept r).gbusy = s.gbusy := rfl
@[simp] theorem State.accept_gi (s : State) (r : Option Word) : (s.accept r).gi = s.gi := rfl
@[simp] theorem State.accept_stream (s : State) (r : Option Word) : (s.accept r).stream = s.stream.tail := rfl
@[simp] theorem State.accept_schedule (s : State) (r : Option Word) : (s.accept r).schedule = s.schedule := rfl
@[simp] theorem State.accept_responses (s : State) (r : Option Word) : (s.accept r).responses = s.responses ++ r.toList := rfl
@[simp] theorem State.accept_event (s : State) (r : Option Word) : (s.accept r).event = .accepted r := rfl
@[simp] theorem State.accept_tick (s : State) (r : Option Word) : (s.accept r).tick = s.tick := rfl
@[simp] theorem State.accept_resets (s : State) (r : Option Word) : (s.accept r).resets = s.resets := rfl

@[simp] theorem State.applyReset_crc (s : State) (c : Option (List CmdWord)) : (s.applyReset c).crc = Config.seed := rfl
@[simp] theorem State.applyReset_table (s : State) (c : Option (List CmdWord)) : (s.applyReset c).table = [] := rfl
@[simp] theorem State.applyReset_tv (s : State) (c : Option (List CmdWord)) : (s.applyReset c).tv = false := rfl
@[simp] theorem State.applyReset_gbusy (s : State) (c : Option (List CmdWord)) : (s.applyReset c).gbusy = false := rfl
@[simp] theorem State.applyReset_gi (s : State) (c : Option (List CmdWord)) : (s.applyReset c).gi = 0#8 := rfl
@[simp] theorem State.applyReset_stream (s : State) (c : Option (List CmdWord)) : (s.applyReset c).stream = c.getD s.stream := rfl
@[simp] theorem State.applyReset_schedule (s : State) (c : Option (List CmdWord)) : (s.applyReset c).schedule = s.schedule := rfl
@[simp] theorem State.applyReset_responses (s : State) (c : Option (List CmdWord)) : (s.applyReset c).responses = s.responses := rfl
@[simp] theorem State.applyReset_event (s : State) (c : Option (List CmdWord)) : (s.applyReset c).event = .reset := rfl
@[simp] theorem State.applyReset_tick (s : State) (c : Option (List CmdWord)) : (s.applyReset c).tick = s.tick := rfl
@[simp] theorem State.applyReset_resets (s : State) (c : Option (List CmdWord)) : (s.applyReset c).resets = s.resets + 1 := rfl

@[simp] theorem State.present_crc (s : State) (ws : List CmdWord) : (s.present ws).crc = s.crc := rfl
@[simp] theorem State.present_table (s : State) (ws : List CmdWord) : (s.present ws).table = s.table := rfl
@[simp] theorem State.present_tv (s : State) (ws : List CmdWord) : (s.present ws).tv = s.tv := rfl
@[simp] theorem State.present_gbusy (s : State) (ws : List CmdWord) : (s.present ws).gbusy = s.gbusy := rfl
@[simp] theorem State.present_gi (s : State) (ws : List CmdWord) : (s.present ws).gi = s.gi := rfl
@[simp] theorem State.present_stream (s : State) (ws : List CmdWord) : (s.present ws).stream = s.stream ++ ws := rfl
@[simp] theorem State.present_schedule (s : State) (ws : List CmdWord) : (s.present ws).schedule = s.schedule := rfl
@[simp] theorem State.present_responses (s : State) (ws : List CmdWord) : (s.present ws).responses = s.responses := rfl
@[simp] theorem State.present_event (s : State) (ws : List CmdWord) : (s.present ws).event = s.event := rfl
@[simp] theorem State.present_tick (s : State) (ws : List CmdWord) : (s.present ws).tick = s.tick := rfl
@[simp] theorem State.present_resets (s : State) (ws : List CmdWord) : (s.present ws).resets = s.resets := rfl

@[simp] theorem State.takeTurn_crc (s : State) : (s.takeTurn).crc = s.crc := rfl
@[simp] theorem State.takeTurn_table (s : State) : (s.takeTurn).table = s.table := rfl
@[simp] theorem State.takeTurn_tv (s : State) : (s.takeTurn).tv = s.tv := rfl
@[simp] theorem State.takeTurn_gbusy (s : State) : (s.takeTurn).gbusy = s.gbusy := rfl
@[simp] theorem State.takeTurn_gi (s : State) : (s.takeTurn).gi = s.gi := rfl
@[simp] theorem State.takeTurn_stream (s : State) : (s.takeTurn).stream = s.stream := rfl
@[simp] theorem State.takeTurn_schedule (s : State) : (s.takeTurn).schedule = s.schedule.tail := rfl
@[simp] theorem State.takeTurn_responses (s : State) : (s.takeTurn).responses = s.responses := rfl
@[simp] theorem State.takeTurn_event (s : State) : (s.takeTurn).event = s.event := rfl
@[simp] theorem State.takeTurn_tick (s : State) : (s.takeTurn).tick = s.tick + 1 := rfl
@[simp] theorem State.takeTurn_resets (s : State) : (s.takeTurn).resets = s.resets := rfl

@[simp] theorem State.presentNext_crc (s : State) (c : CmdWord) : (s.presentNext c).crc = s.crc := rfl
@[simp] theorem State.presentNext_table (s : State) (c : CmdWord) : (s.presentNext c).table = s.table := rfl
@[simp] theorem State.presentNext_tv (s : State) (c : CmdWord) : (s.presentNext c).tv = s.tv := rfl
@[simp] theorem State.presentNext_gbusy (s : State) (c : CmdWord) : (s.presentNext c).gbusy = s.gbusy := rfl
@[simp] theorem State.presentNext_gi (s : State) (c : CmdWord) : (s.presentNext c).gi = s.gi := rfl
@[simp] theorem State.presentNext_stream (s : State) (c : CmdWord) : (s.presentNext c).stream = c :: s.stream := rfl
@[simp] theorem State.presentNext_schedule (s : State) (c : CmdWord) : (s.presentNext c).schedule = .port :: s.schedule := rfl
@[simp] theorem State.presentNext_responses (s : State) (c : CmdWord) : (s.presentNext c).responses = s.responses := rfl
@[simp] theorem State.presentNext_event (s : State) (c : CmdWord) : (s.presentNext c).event = s.event := rfl
@[simp] theorem State.presentNext_tick (s : State) (c : CmdWord) : (s.presentNext c).tick = s.tick := rfl
@[simp] theorem State.presentNext_resets (s : State) (c : CmdWord) : (s.presentNext c).resets = s.resets := rfl

end Sys2Proof.Machine
end

