-- ==== Sys2Proof/Laws/Memory.lean ====
section
/-! SUPPORT. The laws of the written entries of TABLE (20_memory.md rules R20, R21): reading after a write, and the canonical form,
which every operation keeps and in which equal tables are equal lists. -/

namespace Sys2Proof.Machine

theorem Memory.wf_nil : Memory.wf [] = true := rfl

theorem Memory.wf_cons {a : Nat} {v : Word} {m : Memory} :
    Memory.wf ((a, v) :: m) = true ↔ a < 256 ∧ (∀ c ∈ m, a < c.1) ∧ m.wf = true := by
  simp [Memory.wf, and_assoc]

/-- A read after a write to the same index gives the value written. -/
theorem Memory.get?_put_same (m : Memory) (i : Nat) (v : Word) : (m.put i v).get? i = some v := by
  induction m with
  | nil => simp [Memory.put, Memory.get?]
  | cons c m ih =>
    obtain ⟨a, w⟩ := c
    simp only [Memory.put]
    split
    · simp [Memory.get?]
    · split
      · simp [Memory.get?]
      · rename_i h
        simp [Memory.get?, Ne.symm h, ih]

/-- A write changes no other entry. -/
theorem Memory.get?_put_other (m : Memory) {i j : Nat} (v : Word) (h : j ≠ i) :
    (m.put i v).get? j = m.get? j := by
  induction m with
  | nil => simp [Memory.put, Memory.get?, Ne.symm h]
  | cons c m ih =>
    obtain ⟨a, w⟩ := c
    simp only [Memory.put]
    split
    · simp [Memory.get?, Ne.symm h]
    · split
      · rename_i hia
        subst hia
        simp [Memory.get?, Ne.symm h]
      · simp [Memory.get?, ih]

/-- The indices after a write are the old ones and the one written. -/
theorem Memory.mem_put {m : Memory} {i : Nat} {v : Word} {c : Nat × Word} (h : c ∈ m.put i v) :
    c = (i, v) ∨ c ∈ m := by
  induction m with
  | nil => simpa [Memory.put] using h
  | cons d m ih =>
    obtain ⟨a, w⟩ := d
    simp only [Memory.put] at h
    split at h
    · simpa using h
    · split at h
      · rcases List.mem_cons.mp h with rfl | h
        · exact .inl rfl
        · exact .inr (List.mem_cons_of_mem _ h)
      · rcases List.mem_cons.mp h with rfl | h
        · exact .inr List.mem_cons_self
        · exact (ih h).imp_right (List.mem_cons_of_mem _)

/-- A write inside the table space keeps the canonical form. -/
theorem Memory.wf_put {m : Memory} {i : Nat} (v : Word) (hi : i < 256) (h : m.wf = true) :
    (m.put i v).wf = true := by
  induction m with
  | nil => exact Memory.wf_cons.mpr ⟨hi, by simp, rfl⟩
  | cons d m ih =>
    obtain ⟨a, w⟩ := d
    obtain ⟨ha, hlt, hm⟩ := Memory.wf_cons.mp h
    simp only [Memory.put]
    split
    · rename_i hia
      refine Memory.wf_cons.mpr ⟨hi, fun c hc => ?_, h⟩
      rcases List.mem_cons.mp hc with rfl | hc
      · exact hia
      · exact lt_trans hia (hlt c hc)
    · split
      · rename_i hia
        exact Memory.wf_cons.mpr ⟨hi, fun c hc => hia ▸ hlt c hc, hm⟩
      · rename_i hni hne
        refine Memory.wf_cons.mpr ⟨ha, fun c hc => ?_, ih hm⟩
        rcases Memory.mem_put hc with rfl | hc
        · simp only; omega
        · exact hlt c hc

/-- In canonical form no index below all listed ones is listed. -/
theorem Memory.get?_none_of_lt {m : Memory} {i : Nat} (h : ∀ c ∈ m, i < c.1) : m.get? i = none := by
  induction m with
  | nil => rfl
  | cons d m ih =>
    obtain ⟨a, w⟩ := d
    have ha : i < a := h (a, w) List.mem_cons_self
    simp only [Memory.get?, if_neg (show ¬a = i by omega)]
    exact ih fun c hc => h c (List.mem_cons_of_mem _ hc)

/-- Equal tables are equal data: two canonical lists with the same entries are the same list. -/
theorem Memory.ext_get? {m n : Memory} (hm : m.wf = true) (hn : n.wf = true)
    (h : ∀ i, m.get? i = n.get? i) : m = n := by
  induction m generalizing n with
  | nil =>
    cases n with
    | nil => rfl
    | cons d n => have := h d.1; simp [Memory.get?] at this
  | cons d m ih =>
    obtain ⟨a, v⟩ := d
    obtain ⟨-, hlt, hm'⟩ := Memory.wf_cons.mp hm
    cases n with
    | nil => have := h a; simp [Memory.get?] at this
    | cons e n =>
      obtain ⟨b, w⟩ := e
      obtain ⟨-, hlt', hn'⟩ := Memory.wf_cons.mp hn
      have hab : a = b := by
        rcases Nat.lt_trichotomy a b with hab | hab | hab
        · have := h a
          rw [Memory.get?_none_of_lt (m := (b, w) :: n)] at this
          · simp [Memory.get?] at this
          · intro c hc
            rcases List.mem_cons.mp hc with rfl | hc
            · exact hab
            · exact lt_trans hab (hlt' c hc)
        · exact hab
        · have := h b
          rw [Memory.get?_none_of_lt (m := (a, v) :: m)] at this
          · simp [Memory.get?] at this
          · intro c hc
            rcases List.mem_cons.mp hc with rfl | hc
            · exact hab
            · exact lt_trans hab (hlt c hc)
      subst hab
      have hv : v = w := by simpa [Memory.get?] using h a
      subst hv
      refine congrArg _ (ih hm' hn' fun i => ?_)
      by_cases hi : a = i
      · subst hi
        rw [Memory.get?_none_of_lt hlt, Memory.get?_none_of_lt hlt']
      · simpa [Memory.get?, hi] using h i

/-- TableRead after TableWrite at the same index (R21). -/
@[simp] theorem State.tableRead_tableWrite_same (s : State) (i : Byte) (v : Word) :
    (s.tableWrite i v).tableRead i = v := by
  simp [State.tableRead, Memory.get?_put_same]

/-- TableRead of an entry that was not written (R21). -/
theorem State.tableRead_tableWrite_other (s : State) {i j : Byte} (v : Word) (h : j ≠ i) :
    (s.tableWrite i v).tableRead j = s.tableRead j := by
  have : j.toNat ≠ i.toNat := fun e => h (BitVec.eq_of_toNat_eq e)
  simp [State.tableRead, Memory.get?_put_other _ _ this]

/-- TableRead of a written entry. -/
theorem State.tableRead_of_get? {s : State} {i : Byte} {v : Word} (h : s.table.get? i.toNat = some v) :
    s.tableRead i = v := by
  simp [State.tableRead, h]

/-- TableRead depends on the written entries and the count of RESETs alone. -/
theorem State.tableRead_congr {s t : State} (ht : t.table = s.table) (hr : t.resets = s.resets) (j : Byte) :
    t.tableRead j = s.tableRead j := by
  simp [State.tableRead, ht, hr]

end Sys2Proof.Machine
end

