-- ==== Sys2Proof/Laws/Ops.lean ====
section
/-! SUPPORT. What each shared operation and each meaning can do, said once. -/

namespace Sys2Proof.Machine

/-- An offered command is held exactly when its acceptance condition is false (R65, R69). -/
theorem offer_eq_held (i : Instr) (s t : State) (r : Option Word) : offer i s t r = .held ↔ s.ready i = false := by
  cases r <;> cases h : s.ready i <;> simp [offer, h]

/-- In the host's interface an offered command answers a next state: accepted or held (R38, R65). -/
theorem offer_toOutcome (i : Instr) (s t : State) (r : Option Word) :
    (offer i s t r).toOutcome s = .next (if s.ready i then t.accept r else s.hold) := by
  cases r <;> cases h : s.ready i <;> simp [offer, h, Result.toOutcome]

@[simp] theorem State.ready_build (s : State) : s.ready .build = !s.gbusy := rfl
@[simp] theorem State.ready_init (s : State) : s.ready .init = true := rfl
@[simp] theorem State.ready_update (s : State) (b : Byte) : s.ready (.update b) = s.tv := rfl
@[simp] theorem State.ready_read (s : State) : s.ready .read = true := rfl

/-- The state a command leaves when it is accepted, its stream and response aside. -/
def State.effect (s : State) : Instr → State
  | .build => s.startBuild
  | .init => s.setCrc Config.seed
  | .update b => s.setCrc (combine s.crc (s.tableRead (tableIndex s.crc b)))
  | .read => s

/-- The response of a command when it is accepted (R35). -/
def State.response (s : State) : Instr → Option Word
  | .build => none
  | .init => none
  | .update _ => none
  | .read => some s.crc

/-- Every command in one line: offered with its effect and its response. -/
theorem commandResult_eq_offer (i : Instr) (s : State) :
    commandResult i s = offer i s (s.effect i) (s.response i) := by
  cases i <;> rfl

/-- The outcome of a command that cannot be accepted (R65). -/
theorem commandResult_held {i : Instr} {s : State} (h : s.ready i = false) : commandResult i s = .held := by
  rw [commandResult_eq_offer, offer_eq_held]; exact h

/-- The outcome of a command that can be accepted: with the response CRC for READ, without one for every other (R35, R69). -/
theorem commandResult_accepted {i : Instr} {s : State} (h : s.ready i = true) :
    commandResult i s = if i = .read then .nextResponse (s.accept (some s.crc)) s.crc else .next ((s.effect i).accept none) := by
  rw [commandResult_eq_offer]
  cases i <;> simp [offer, h, State.response, State.effect]

/-- `exec` is the command's outcome in the host's interface. -/
theorem exec_eq_commandResult (i : Instr) (s : State) : exec i s = (commandResult i s).toOutcome s := by
  cases i <;> rfl

/-- Every command answers a next state: accepted with its effect and response, or held. -/
theorem exec_next (i : Instr) (s : State) :
    exec i s = .next (if s.ready i then (s.effect i).accept (s.response i) else s.hold) := by
  rw [exec_eq_commandResult, commandResult_eq_offer, offer_toOutcome]

/-- Every command, accepted: the exact next state. -/
theorem exec_accepted {i : Instr} {s : State} (h : s.ready i = true) :
    exec i s = .next ((s.effect i).accept (s.response i)) := by
  simp [exec_next, h]

/-- Every command, held: nothing but the note that it was held. -/
theorem exec_held {i : Instr} {s : State} (h : s.ready i = false) : exec i s = .next s.hold := by
  simp [exec_next, h]

/-- What `exec` can do: accept the command with its effect, or hold it. -/
theorem exec_cases {i : Instr} {s t : State} (h : exec i s = .next t) :
    (s.ready i = true ∧ t = (s.effect i).accept (s.response i)) ∨ (s.ready i = false ∧ t = s.hold) := by
  cases hr : s.ready i
  · rw [exec_held hr] at h
    exact .inr ⟨rfl, by injection h with h; exact h.symm⟩
  · rw [exec_accepted hr] at h
    exact .inl ⟨rfl, by injection h with h; exact h.symm⟩

@[simp] theorem State.effect_table (s : State) (i : Instr) : (s.effect i).table = s.table := by cases i <;> rfl
@[simp] theorem State.effect_resets (s : State) (i : Instr) : (s.effect i).resets = s.resets := by cases i <;> rfl
@[simp] theorem State.effect_stream (s : State) (i : Instr) : (s.effect i).stream = s.stream := by cases i <;> rfl
@[simp] theorem State.effect_schedule (s : State) (i : Instr) : (s.effect i).schedule = s.schedule := by cases i <;> rfl
@[simp] theorem State.effect_responses (s : State) (i : Instr) : (s.effect i).responses = s.responses := by cases i <;> rfl
@[simp] theorem State.effect_tick (s : State) (i : Instr) : (s.effect i).tick = s.tick := by cases i <;> rfl

/-- GEN with an idle generator does nothing (R43 corner case (a)). -/
theorem State.genStep_idle {s : State} (h : s.gbusy = false) : s.genStep = s.note .waiting := by
  simp [State.genStep, h]

/-- GEN below the last entry (R43). -/
theorem State.genStep_inner {s : State} (h : s.gbusy = true) (hi : s.gi ≠ 255#8) :
    s.genStep = (s.tableWrite s.gi (entry s.gi)).advanceGi.note .gen := by
  simp [State.genStep, h, hi]

/-- GEN at the last entry (R43 corner case (b)). -/
theorem State.genStep_last {s : State} (h : s.gbusy = true) (hi : s.gi = 255#8) :
    s.genStep = (s.tableWrite s.gi (entry s.gi)).finishBuild.note .gen := by
  simp [State.genStep, h, hi]

/-- GEN never touches CRC or the host's channels (R43). -/
theorem State.genStep_frame (s : State) :
    s.genStep.crc = s.crc ∧ s.genStep.stream = s.stream ∧ s.genStep.schedule = s.schedule ∧
      s.genStep.responses = s.responses ∧ s.genStep.tick = s.tick ∧ s.genStep.resets = s.resets := by
  unfold State.genStep
  split
  · split <;> simp
  · simp

end Sys2Proof.Machine
end

