-- ==== Sys2Proof/Laws/PerInstr.lean ====
section
/-! SUPPORT. Per-command facts about the encoding: the encoder emits a canonical word of the command's own row (30_encoding.md rules R33, R34). -/

namespace Sys2Proof.Laws

/-- The word of `i` is canonical and belongs to the row of `i` in the opcode map. -/
def CanonicalRow.Statement (i : Instr) : Prop :=
  i.wf = true ∧ canonicalWord (encode i) = true ∧ (opRow i).covers (encode i) = true

theorem CanonicalRow.build : CanonicalRow.Statement .build := by
  unfold CanonicalRow.Statement; decide

theorem CanonicalRow.init : CanonicalRow.Statement .init := by
  unfold CanonicalRow.Statement; decide

theorem CanonicalRow.update (b : Byte) : CanonicalRow.Statement (.update b) := by
  unfold CanonicalRow.Statement
  revert b
  decide

theorem CanonicalRow.read : CanonicalRow.Statement .read := by
  unfold CanonicalRow.Statement; decide

end Sys2Proof.Laws
end

