-- ==== Sys2Proof/Laws/Step.lean ====
section
/-! SUPPORT. What one step can do, said once. -/

namespace Sys2Proof.Machine

/-- Taking the turn changes neither what is presented nor what can be accepted. -/
@[simp] theorem State.takeTurn_presented (s : State) : s.takeTurn.presented = s.presented := rfl

@[simp] theorem State.takeTurn_ready (s : State) (i : Instr) : s.takeTurn.ready i = s.ready i := by cases i <;> rfl

@[simp] theorem State.takeTurn_tableRead (s : State) (j : Byte) : s.takeTurn.tableRead j = s.tableRead j := rfl

/-- The turn of a scheduled step. -/
theorem State.turn_cons {s : State} {x : Turn} {rest : List Turn} (h : s.schedule = x :: rest) : s.turn = x := by
  simp [State.turn, h]

/-- The turn where nothing is scheduled. -/
theorem State.turn_nil {s : State} (h : s.schedule = []) : s.turn = s.freeTurn := by
  simp [State.turn, h]

/-- The free turn is GEN or the port, never RESET. -/
theorem State.freeTurn_cases (s : State) : s.freeTurn = .gen ∧ s.gbusy = true ∨ s.freeTurn = .port := by
  unfold State.freeTurn
  split
  · rename_i h
    exact .inl ⟨rfl, by simp at h; exact h.1⟩
  · exact .inr rfl

/-- A step at the generator's turn. -/
theorem step_gen {s : State} (h : s.turn = .gen) : step s = .next s.takeTurn.genStep := by
  simp [step, h]

/-- A step at the port's turn with a command presented: the decoded command (R38). -/
theorem step_port {s : State} {w : CmdWord} (h : s.turn = .port) (hw : s.presented = some w) :
    step s = exec (decode w) s.takeTurn := by
  have : s.takeTurn.presented = some w := hw
  simp [step, h, portStep, this]

/-- A step at the port's turn with no command presented. -/
theorem step_port_empty {s : State} (h : s.turn = .port) (hw : s.presented = none) :
    step s = .next (s.takeTurn.note .waiting) := by
  have : s.takeTurn.presented = none := hw
  simp [step, h, portStep, this]

/-- A step at which the host applies RESET (R70). -/
theorem step_reset {s : State} {c : Option (List CmdWord)} (h : s.turn = .reset c) :
    step s = .next (s.takeTurn.applyReset c) := by
  simp [step, h]

/-- Everything a step can do. -/
theorem step_cases {s t : State} (h : step s = .next t) :
    (s.turn = .gen ∧ t = s.takeTurn.genStep) ∨
    (s.turn = .port ∧ s.presented = none ∧ t = s.takeTurn.note .waiting) ∨
    (∃ w, s.turn = .port ∧ s.presented = some w ∧ s.ready (decode w) = true ∧
      t = (s.takeTurn.effect (decode w)).accept (s.takeTurn.response (decode w))) ∨
    (∃ w, s.turn = .port ∧ s.presented = some w ∧ s.ready (decode w) = false ∧ t = s.takeTurn.hold) ∨
    (∃ c, s.turn = .reset c ∧ t = s.takeTurn.applyReset c) := by
  cases hturn : s.turn with
  | gen =>
    rw [step_gen hturn] at h
    injection h with h
    exact .inl ⟨rfl, h.symm⟩
  | port =>
    cases hw : s.presented with
    | none =>
      rw [step_port_empty hturn hw] at h
      injection h with h
      exact .inr (.inl ⟨rfl, rfl, h.symm⟩)
    | some w =>
      rw [step_port hturn hw] at h
      rcases exec_cases h with ⟨hr, ht⟩ | ⟨hr, ht⟩
      · exact .inr (.inr (.inl ⟨w, rfl, rfl, by simpa using hr, ht⟩))
      · exact .inr (.inr (.inr (.inl ⟨w, rfl, rfl, by simpa using hr, ht⟩)))
  | reset c =>
    rw [step_reset hturn] at h
    injection h with h
    exact .inr (.inr (.inr (.inr ⟨c, rfl, h.symm⟩)))

end Sys2Proof.Machine
end

