-- ==== Sys2Proof/Laws/Run.lean ====
section
/-! SUPPORT. Runs of several steps. -/

namespace Sys2Proof.Machine

/-- `cmd_ready` is the acceptance condition of the decoded command (R38). -/
theorem State.cmdReady_eq_ready (s : State) (w : CmdWord) : s.cmdReady w = s.ready (decode w) := by
  unfold State.cmdReady decode
  split
  · rfl
  · split
    · rfl
    · split <;> rfl

/-- The invariant is about TABLE, the flags and GI alone. -/
theorem BlockInv.congr {s t : State} (h : BlockInv s) (htable : t.table = s.table) (htv : t.tv = s.tv)
    (hgbusy : t.gbusy = s.gbusy) (hgi : t.gi = s.gi) : BlockInv t where
  canonical := htable ▸ h.canonical
  notBoth := by rw [htv, hgbusy]; exact h.notBoth
  idleIndex := by rw [hgbusy, hgi]; exact h.idleIndex
  building := by rw [hgbusy, hgi, htable]; exact h.building
  valid := by rw [htv, htable]; exact h.valid
  written := by rw [htable]; exact h.written

/-- A step takes one turn of the schedule. -/
theorem step_schedule {s t : State} (h : step s = .next t) : t.schedule = s.schedule.tail := by
  rcases step_cases h with ⟨-, rfl⟩ | ⟨-, -, rfl⟩ | ⟨w, -, -, -, rfl⟩ | ⟨w, -, -, -, rfl⟩ | ⟨c, -, rfl⟩
  · rw [(State.genStep_frame _).2.2.1]; rfl
  all_goals simp

/-- Without RESET in the schedule the step is none, and there is none in what is left of it. -/
theorem ResetFree.step {s t : State} (h : ResetFree s.schedule) (hs : step s = .next t) :
    ResetFree t.schedule ∧ ¬AppliesReset s := by
  refine ⟨fun x hx => h x (List.mem_of_mem_tail (step_schedule hs ▸ hx)), ?_⟩
  rintro ⟨c, hc⟩
  cases hsch : s.schedule with
  | nil =>
    rw [State.turn_nil hsch] at hc
    rcases State.freeTurn_cases s with h | h <;> simp_all
  | cons x l =>
    rw [State.turn_cons hsch] at hc
    exact h x (by simp [hsch]) c hc

/-- Every step answers a next state. -/
theorem step_total (s : State) : ∃ t, step s = .next t := by
  cases hturn : s.turn with
  | gen => exact ⟨_, step_gen hturn⟩
  | port =>
    cases hw : s.presented with
    | none => exact ⟨_, step_port_empty hturn hw⟩
    | some w => rw [step_port hturn hw, exec_next]; exact ⟨_, rfl⟩
  | reset c => exact ⟨_, step_reset hturn⟩

@[simp] theorem run_zero (s : State) : run 0 s = .next s := rfl

/-- A run begins with a step. -/
theorem run_succ {s t : State} (h : step s = .next t) (k : Nat) : run (k + 1) s = run k t := by
  show Host.Core.run Sys2Proof.core (k + 1) s = _
  have h' : Sys2Proof.core.step s = .next t := h
  simp only [Host.Core.run, h']
  rfl

/-- A run that ends in a next state goes through one after its first step. -/
theorem run_succ_cases {s u : State} {k : Nat} (h : run (k + 1) s = .next u) :
    ∃ t, step s = .next t ∧ run k t = .next u := by
  obtain ⟨t, ht⟩ := step_total s
  exact ⟨t, ht, run_succ ht k ▸ h⟩

/-- Runs compose. -/
theorem run_add {s t : State} {j : Nat} (h : run j s = .next t) (k : Nat) : run (j + k) s = run k t := by
  induction j generalizing s with
  | zero =>
    rw [run_zero] at h
    injection h with h
    rw [h, Nat.zero_add]
  | succ j ih =>
    obtain ⟨u, hu, hrun⟩ := run_succ_cases h
    rw [Nat.add_right_comm, run_succ hu, ih hrun]

/-- An induction over the steps of a run, packaged once: what a step keeps, a run keeps. -/
theorem run_keeps {P : State → Prop} (hstep : ∀ s t, P s → step s = .next t → P t) {k : Nat} {s t : State}
    (hs : P s) (h : run k s = .next t) : P t := by
  induction k generalizing s with
  | zero =>
    rw [run_zero] at h
    injection h with h
    exact h ▸ hs
  | succ k ih =>
    obtain ⟨u, hu, hrun⟩ := run_succ_cases h
    exact ih (hstep s u hs hu) hrun

end Sys2Proof.Machine
end

