-- ==== Sys2Proof/Tests/Slice0.lean ====
section
/-! SUPPORT. The model's own tests. Every expected value is the spec's: 95_test_vectors.md, the worked examples of the rules, R47.
Then, for every statement with hypotheses, a witness that meets them. -/

namespace Sys2Proof.Tests

open Sys2Proof.Machine

/-! ## Well-formedness: an ill-formed term for each check -/

theorem test_fitsCommand_refuses : fitsCommand 1024 = false ∧ fitsCommand 1023 = true := by decide
theorem test_fitsByte_refuses : fitsByte 256 = false ∧ fitsByte 255 = true := by decide
theorem test_canonicalWord_refuses : canonicalWord 0x0FF#10 = false ∧ canonicalWord 0x1AA#10 = false ∧
    canonicalWord 0x355#10 = false ∧ canonicalWord 0x2FF#10 = true := by decide
theorem test_boundary_refuses : commandWordOf 1024 = .error (.commandTooWide 1024) ∧
    bytesOf [0x31, 256, 300] = .error (.notAByte 256) ∧ bytesOf [0x31, 255] = .ok [0x31#8, 0xFF#8] := by decide

/-! ## Decoding: words written out bit by bit from R32 and R33, and section 5 of the vectors -/

theorem test_decode_build : decode 0b0000000000#10 = .build ∧ decode 0b0011111111#10 = .build := by decide
theorem test_decode_init : decode 0b0100000000#10 = .init ∧ decode 0b0110101010#10 = .init := by decide
theorem test_decode_update : decode 0b1000110001#10 = .update 0x31#8 ∧ decode 0b1011111111#10 = .update 0xFF#8 := by decide
theorem test_decode_read : decode 0b1100000000#10 = .read ∧ decode 0b1101010101#10 = .read := by decide
theorem test_encode : encode .build = 0x000#10 ∧ encode .init = 0x100#10 ∧ encode (.update 0x31#8) = 0x231#10 ∧
    encode .read = 0x300#10 := by decide
theorem test_decodeTableWord : decodeTableWord 16 0x231 = some (.update 0x31#8) ∧ decodeTableWord 10 0x300 = some .read ∧
    decodeTableWord 16 0x400 = none := by decide

/-! ## The assembler (R37) -/

/-- `UPDATE 0x31  # one`, `UPDATE 49`, `UPDATE '1'` and a comment line. -/
theorem test_assembler_numbers : assemble
    [['U', 'P', 'D', 'A', 'T', 'E', ' ', '0', 'x', '3', '1', ' ', '#', 'o'],
     ['U', 'P', 'D', 'A', 'T', 'E', ' ', '4', '9'],
     ['#', 'B'], ['U', 'P', 'D', 'A', 'T', 'E', ' ', '\'', '1', '\'']] = .ok [0x231#10, 0x231#10, 0x231#10] := by decide

/-- P1 of the vectors in pseudo-operations, shortened: `STARTUP`; `COMPUTE '1' '2'`. -/
theorem test_assembler_pseudo : assemble
    [['S', 'T', 'A', 'R', 'T', 'U', 'P'],
     ['C', 'O', 'M', 'P', 'U', 'T', 'E', ' ', '\'', '1', '\'', ' ', '\'', '2', '\'']] =
    .ok [0x000#10, 0x100#10, 0x231#10, 0x232#10, 0x300#10] := by decide

/-- `b` in 0..255 only; a command without operand takes none. -/
theorem test_assembler_refuses : assembleLine ['U', 'P', 'D', 'A', 'T', 'E', ' ', '2', '5', '6'] = .error (.notAByte 256) ∧
    assembleLine ['R', 'E', 'A', 'D', ' ', '1'] = .error .operandCount ∧
    assembleLine ['S', 'T', 'O', 'P'] = .error (.unknownMnemonic ['S', 'T', 'O', 'P']) := by decide

/-! ## The pure functions -/

/-- `POLY_REFLECTED` is the bit reversal of `POLY_NORMAL` (00_scope.md section 5). -/
theorem test_poly_reflected : Config.polyReflected = Config.polyNormal.reverse := by decide

/-- Section 2.1 of the vectors: the logical shift shows at 0x8000 and 0xFFFF. -/
theorem test_bitstep : bitstep 0x00FF#16 = 0xA07E#16 ∧ bitstep 0x4003#16 = 0x8000#16 ∧ bitstep 0x8000#16 = 0x4000#16 ∧
    bitstep 0xA001#16 = 0xF001#16 ∧ bitstep 0xFFFF#16 = 0xDFFE#16 := by decide

/-- R47, rows 0x00 to 0x38, as the spec lists them. -/
theorem test_table_listing_00 : (List.range' 0 64).map (fun i => entry (BitVec.ofNat 8 i)) =
    [0x0000, 0xC0C1, 0xC181, 0x0140, 0xC301, 0x03C0, 0x0280, 0xC241] ++
    [0xC601, 0x06C0, 0x0780, 0xC741, 0x0500, 0xC5C1, 0xC481, 0x0440] ++
    [0xCC01, 0x0CC0, 0x0D80, 0xCD41, 0x0F00, 0xCFC1, 0xCE81, 0x0E40] ++
    [0x0A00, 0xCAC1, 0xCB81, 0x0B40, 0xC901, 0x09C0, 0x0880, 0xC841] ++
    [0xD801, 0x18C0, 0x1980, 0xD941, 0x1B00, 0xDBC1, 0xDA81, 0x1A40] ++
    [0x1E00, 0xDEC1, 0xDF81, 0x1F40, 0xDD01, 0x1DC0, 0x1C80, 0xDC41] ++
    [0x1400, 0xD4C1, 0xD581, 0x1540, 0xD701, 0x17C0, 0x1680, 0xD641] ++
    [0xD201, 0x12C0, 0x1380, 0xD341, 0x1100, 0xD1C1, 0xD081, 0x1040] := by decide

/-- R47, rows 0x40 to 0x78, as the spec lists them. -/
theorem test_table_listing_40 : (List.range' 64 64).map (fun i => entry (BitVec.ofNat 8 i)) =
    [0xF001, 0x30C0, 0x3180, 0xF141, 0x3300, 0xF3C1, 0xF281, 0x3240] ++
    [0x3600, 0xF6C1, 0xF781, 0x3740, 0xF501, 0x35C0, 0x3480, 0xF441] ++
    [0x3C00, 0xFCC1, 0xFD81, 0x3D40, 0xFF01, 0x3FC0, 0x3E80, 0xFE41] ++
    [0xFA01, 0x3AC0, 0x3B80, 0xFB41, 0x3900, 0xF9C1, 0xF881, 0x3840] ++
    [0x2800, 0xE8C1, 0xE981, 0x2940, 0xEB01, 0x2BC0, 0x2A80, 0xEA41] ++
    [0xEE01, 0x2EC0, 0x2F80, 0xEF41, 0x2D00, 0xEDC1, 0xEC81, 0x2C40] ++
    [0xE401, 0x24C0, 0x2580, 0xE541, 0x2700, 0xE7C1, 0xE681, 0x2640] ++
    [0x2200, 0xE2C1, 0xE381, 0x2340, 0xE101, 0x21C0, 0x2080, 0xE041] := by decide

/-- R47, rows 0x80 to 0xB8, as the spec lists them. -/
theorem test_table_listing_80 : (List.range' 128 64).map (fun i => entry (BitVec.ofNat 8 i)) =
    [0xA001, 0x60C0, 0x6180, 0xA141, 0x6300, 0xA3C1, 0xA281, 0x6240] ++
    [0x6600, 0xA6C1, 0xA781, 0x6740, 0xA501, 0x65C0, 0x6480, 0xA441] ++
    [0x6C00, 0xACC1, 0xAD81, 0x6D40, 0xAF01, 0x6FC0, 0x6E80, 0xAE41] ++
    [0xAA01, 0x6AC0, 0x6B80, 0xAB41, 0x6900, 0xA9C1, 0xA881, 0x6840] ++
    [0x7800, 0xB8C1, 0xB981, 0x7940, 0xBB01, 0x7BC0, 0x7A80, 0xBA41] ++
    [0xBE01, 0x7EC0, 0x7F80, 0xBF41, 0x7D00, 0xBDC1, 0xBC81, 0x7C40] ++
    [0xB401, 0x74C0, 0x7580, 0xB541, 0x7700, 0xB7C1, 0xB681, 0x7640] ++
    [0x7200, 0xB2C1, 0xB381, 0x7340, 0xB101, 0x71C0, 0x7080, 0xB041] := by decide

/-- R47, rows 0xC0 to 0xF8, as the spec lists them. -/
theorem test_table_listing_c0 : (List.range' 192 64).map (fun i => entry (BitVec.ofNat 8 i)) =
    [0x5000, 0x90C1, 0x9181, 0x5140, 0x9301, 0x53C0, 0x5280, 0x9241] ++
    [0x9601, 0x56C0, 0x5780, 0x9741, 0x5500, 0x95C1, 0x9481, 0x5440] ++
    [0x9C01, 0x5CC0, 0x5D80, 0x9D41, 0x5F00, 0x9FC1, 0x9E81, 0x5E40] ++
    [0x5A00, 0x9AC1, 0x9B81, 0x5B40, 0x9901, 0x59C0, 0x5880, 0x9841] ++
    [0x8801, 0x48C0, 0x4980, 0x8941, 0x4B00, 0x8BC1, 0x8A81, 0x4A40] ++
    [0x4E00, 0x8EC1, 0x8F81, 0x4F40, 0x8D01, 0x4DC0, 0x4C80, 0x8C41] ++
    [0x4400, 0x84C1, 0x8581, 0x4540, 0x8701, 0x47C0, 0x4680, 0x8641] ++
    [0x8201, 0x42C0, 0x4380, 0x8341, 0x4100, 0x81C1, 0x8081, 0x4040] := by decide

/-- S1 and S5, and M4, M12, M22 of the vectors. -/
theorem test_compute : compute [0x31, 0x32, 0x33, 0x34, 0x35, 0x36, 0x37, 0x38, 0x39] = 0x4B37#16 ∧ compute [] = 0xFFFF#16 ∧
    compute [0, 0, 0] = 0xC071#16 ∧ compute [0x61, 0x62, 0x63] = 0x5749#16 ∧ compute [1, 3, 0, 0, 0, 0x0A] = 0xCDC5#16 := by decide

/-- S2 of the vectors in two halves, the 11th value of the trace of section 4.2 between them. -/
theorem test_fold_22_times_41 : fold 0xFFFF#16 (List.replicate 11 0x41#8) = 0x352B#16 ∧
    fold 0x352B#16 (List.replicate 11 0x41#8) = 0xDAB3#16 := by decide

/-! ## Single steps -/

/-- The first entries of TABLE, `n` of them, as a build leaves them. -/
def written (n : Nat) : Memory := (List.range' 0 n).map (fun i => (i, entry (BitVec.ofNat 8 i)))

/-- A state with a valid table. -/
def built : State := { State.reset with table := written 256, tv := true }

/-- A state in the middle of a build. -/
def building (g : Byte) : State := { State.reset with table := written g.toNat, gbusy := true, gi := g }

/-- The fields a step leaves: (CRC, TV, GBUSY, GI), the response port and the last event. -/
structure Shown where
  crc : Word
  tv : Bool
  gbusy : Bool
  gi : Byte
  rsp : Option Word
  event : Event
  deriving DecidableEq, Repr

def shows (o : Host.Outcome State Fault Refusal) : Option Shown :=
  match o with
  | .next t => some ⟨t.crc, t.tv, t.gbusy, t.gi, t.rsp, t.event⟩
  | .fault _ => none
  | .refused _ => none

/-- B1 and B4. -/
theorem test_build_starts : shows (step (State.reset.withFetchWord 16 0x0FF)) =
    some ⟨0xFFFF#16, false, true, 0#8, none, .accepted none⟩ := by decide

/-- B3: held during a build. -/
theorem test_build_held : shows (exec .build { State.reset with gbusy := true, gi := 17#8 }) =
    some ⟨0xFFFF#16, false, true, 17#8, none, .held⟩ := by decide

/-- I3: accepted during a build. -/
theorem test_init_during_build : shows (exec .init { State.reset with crc := 0#16, gbusy := true, gi := 99#8 }) =
    some ⟨0xFFFF#16, false, true, 99#8, none, .accepted none⟩ := by decide

/-- I4: the data field is ignored. -/
theorem test_init_step : shows (step (State.withFetchWord { State.reset with crc := 0x1234#16 } 16 0x1A5)) =
    some ⟨0xFFFF#16, false, false, 0#8, none, .accepted none⟩ := by decide

/-- U7 and U10, with the one entry the lookup needs. -/
theorem test_update_steps :
    shows (exec (.update 0x31#8) { State.reset with tv := true, table := [(0xCE, 0x9481#16)] }) =
      some ⟨0x947E#16, true, false, 0#8, none, .accepted none⟩ ∧
    shows (exec (.update 0x00#8) { State.reset with crc := 0x1234#16, tv := true, table := [(0x33, 1#16), (0x34, 0xD701#16)] }) =
      some ⟨0xD713#16, true, false, 0#8, none, .accepted none⟩ := by decide

/-- U20: held, and the word stays. -/
theorem test_update_held : shows (step (State.reset.withFetchWord 16 0x231)) =
    some ⟨0xFFFF#16, false, false, 0#8, none, .held⟩ := by decide

/-- D3 and D1. -/
theorem test_read_steps :
    shows (exec .read { State.reset with crc := 0x30BA#16, gbusy := true, gi := 12#8 }) =
      some ⟨0x30BA#16, false, true, 12#8, some 0x30BA#16, .accepted (some 0x30BA#16)⟩ ∧
    shows (exec .read { State.reset with crc := 0x4B37#16, tv := true }) =
      some ⟨0x4B37#16, true, false, 0#8, some 0x4B37#16, .accepted (some 0x4B37#16)⟩ := by decide

/-- G4, G6 and G7. -/
theorem test_gen_steps :
    (({ State.reset with gbusy := true, gi := 0x41#8 } : State).genStep.table = [(0x41, 0x30C0#16)]) ∧
    shows (.next ({ State.reset with gbusy := true, gi := 0x41#8 } : State).genStep) =
      some ⟨0xFFFF#16, false, true, 0x42#8, none, .gen⟩ ∧
    (({ State.reset with gbusy := true, gi := 255#8 } : State).genStep.table = [(0xFF, 0x4040#16)]) ∧
    shows (.next ({ State.reset with gbusy := true, gi := 255#8 } : State).genStep) =
      some ⟨0xFFFF#16, true, false, 0#8, none, .gen⟩ ∧
    shows (.next State.reset.genStep) = some ⟨0xFFFF#16, false, false, 0#8, none, .waiting⟩ := by decide

/-- P8: RESET in the middle of a build abandons it; what was presented is still presented, or is withdrawn. -/
theorem test_reset_in_build :
    shows (.next (({ building 3#8 with crc := 0x1234#16 } : State).applyReset none)) =
      some ⟨0xFFFF#16, false, false, 0#8, none, .reset⟩ ∧
    ((building 3#8).applyReset none).table = [] ∧
    (({ building 3#8 with stream := [0x231#10] } : State).applyReset none).stream = [0x231#10] ∧
    (({ building 3#8 with stream := [0x231#10] } : State).applyReset (some [])).stream = [] := by decide

/-- A write keeps the canonical order, whatever the order of the writes. -/
theorem test_put_canonical : Memory.put (Memory.put (Memory.put [] 5 1#16) 2 7#16) 5 3#16 = [(2, 7#16), (5, 3#16)] ∧
    Memory.wf [(2, 7#16), (5, 3#16)] = true ∧ Memory.wf [(5, 3#16), (2, 7#16)] = false ∧
    Memory.wf [(256, 0#16)] = false := by decide

/-- The three outcomes of R69, on B3, I2 and D2. -/
theorem test_three_outcomes : commandResult .build (building 17#8) = .held ∧
    commandResult .init State.reset = .next (State.reset.accept none) ∧
    commandResult .read State.reset = .nextResponse (State.reset.accept (some 0xFFFF#16)) 0xFFFF#16 ∧
    stepResult (State.reset.withFetchWord 16 0x231) = .held ∧
    stepResult { building 0x41#8 with schedule := [.gen] } = .next (State.takeTurn { building 0x41#8 with schedule := [.gen] }).genStep := by
  decide

/-! ## Witnesses: states that meet the hypotheses of the statements -/

theorem get?_entries (a n i : Nat) : Memory.get? ((List.range' a n).map (fun k => (k, entry (BitVec.ofNat 8 k)))) i =
    if a ≤ i ∧ i < a + n then some (entry (BitVec.ofNat 8 i)) else none := by
  induction n generalizing a with
  | zero => simp [Memory.get?]
  | succ n ih =>
    simp only [List.range'_succ, List.map_cons, Memory.get?, ih]
    by_cases h : a = i
    · subst h; simp
    · rw [if_neg h]
      congr 1
      exact propext (by omega)

theorem get?_written (n i : Nat) : (written n).get? i = if i < n then some (entry (BitVec.ofNat 8 i)) else none := by
  simp [written, get?_entries]

theorem wf_entries (a n : Nat) (h : a + n ≤ 256) :
    Memory.wf ((List.range' a n).map (fun k => (k, entry (BitVec.ofNat 8 k)))) = true := by
  induction n generalizing a with
  | zero => rfl
  | succ n ih =>
    simp only [List.range'_succ, List.map_cons]
    refine Memory.wf_cons.mpr ⟨by omega, fun c hc => ?_, ih (a + 1) (by omega)⟩
    obtain ⟨k, hk, rfl⟩ := List.mem_map.mp hc
    have := (List.mem_range'_1.mp hk).1
    simp only; omega

/-- The state in the middle of a build meets the invariant. -/
theorem building_inv (g : Byte) : BlockInv (building g) where
  canonical := wf_entries 0 g.toNat (by have := g.isLt; omega)
  notBoth := by simp [building, State.reset]
  idleIndex := by simp [building]
  building := fun _ j hj => by
    have hj : j.toNat < g.toNat := hj
    simp [Sys2Proof.Tests.building, get?_written, hj]
  valid := by simp [building, State.reset]
  written := fun j v h => by
    simp only [Sys2Proof.Tests.building, get?_written] at h
    split at h <;> simp_all

/-- The state with a valid table meets the invariant. -/
theorem built_inv : BlockInv built where
  canonical := wf_entries 0 256 (by omega)
  notBoth := by simp [built, State.reset]
  idleIndex := by simp [built, State.reset]
  building := by simp [built, State.reset]
  valid := fun _ j => by
    have := j.isLt
    simp [built, get?_written, this]
  written := fun j v h => by
    have := j.isLt
    simp only [built, get?_written, this] at h
    simp_all

/-- Any host side around a block that meets the invariant meets it too. -/
theorem witness_inv_built (stream : List CmdWord) (sched : List Turn) :
    BlockInv { built with stream := stream, schedule := sched } := built_inv.congr rfl rfl rfl rfl

theorem witness_inv_building (g : Byte) (stream : List CmdWord) (sched : List Turn) :
    BlockInv { building g with stream := stream, schedule := sched } := (building_inv g).congr rfl rfl rfl rfl

theorem witness_EveryWordHasOneRow : opRow .read ∈ opcodeMap ∧ (opRow .read).covers 0x3FF#10 = true ∧
    opField 0x0FF#10 = 0b00#2 ∧ opField 0x100#10 = 0b01#2 ∧ opField 0x2FF#10 = 0b10#2 ∧ opField 0x300#10 = 0b11#2 := by decide

theorem witness_BoundaryRefusesNeverTruncates : (∃ w, 1024 ≤ w ∧ commandWordOf w = .error (.commandTooWide w)) ∧
    commandWordOf 1023 = .ok 0x3FF#10 ∧ byteOf 256 = .error (.notAByte 256) ∧ byteOf 255 = .ok 0xFF#8 :=
  ⟨⟨1024, by decide⟩, by decide⟩

theorem witness_StepRunsPresentedCommand : (State.reset.withFetchWord 16 0x300).turn = .port ∧
    (State.reset.withFetchWord 16 0x300).presented = some 0x300#10 ∧
    ({ State.reset with schedule := [.port] } : State).schedule = .port :: [] ∧
    State.reset.schedule = [] ∧ State.reset.gbusy = false := by decide

theorem witness_PlacedWordRunsNext : decodeTableWord 16 0x3FF = some .read ∧ decodeTableWord 10 0x000 = some .build := by decide

/-- One word accepted, one held, one GEN turn. -/
theorem witness_CommandsAcceptedInOrder :
    (∃ t, step (State.reset.withFetchWord 16 0x300) = .next t ∧ t.stream = []) ∧
    (∃ t, step (State.reset.withFetchWord 16 0x231) = .next t ∧ t.stream = [0x231#10]) ∧
    ¬AppliesReset (State.reset.withFetchWord 16 0x300) ∧ ¬AppliesReset (State.reset.withFetchWord 16 0x231) := by
  refine ⟨⟨_, rfl, by decide⟩, ⟨_, rfl, by decide⟩, ?_, ?_⟩ <;> rintro ⟨c, h⟩ <;> exact Turn.noConfusion h

theorem witness_BuildStartsGenerator : State.reset.gbusy = false ∧ built.gbusy = false := by decide

theorem witness_UpdateFoldsByte : built.tv = true ∧ BlockInv built ∧ State.reset.tv = false := ⟨rfl, built_inv, rfl⟩

theorem witness_HeldCommandChangesNothing : (building 255#8).ready .build = false ∧
    State.reset.ready (.update 0x00#8) = false ∧ (building 0#8).ready (.update 0xFF#8) = false := by decide

theorem witness_CommandFrame : (∃ t, exec .read built = .next t) ∧ (∃ t, exec .build built = .next t) ∧
    (∃ t, exec (.update 0x31#8) State.reset = .next t) ∧ Instr.read ≠ .init ∧ (∀ b, Instr.read ≠ .update b) :=
  ⟨⟨_, rfl⟩, ⟨_, rfl⟩, ⟨_, rfl⟩, by decide, fun _ h => Instr.noConfusion h⟩

/-- GEN at the entry before the last, at the last, and idle. -/
theorem witness_GenWritesOneEntry :
    ({ building 254#8 with schedule := [.gen] } : State).turn = .gen ∧ (building 254#8).gi ≠ 255#8 ∧
    ({ building 255#8 with schedule := [.gen] } : State).turn = .gen ∧ (building 255#8).gi = 255#8 ∧
    (building 255#8).gbusy = true ∧ ({ built with schedule := [.gen] } : State).turn = .gen ∧ built.gbusy = false := by
  decide

/-- Each outcome occurs. -/
theorem witness_ThreeOutcomesOnly : commandResult (.update 0xFF#8) State.reset = .held ∧
    (∃ t v, commandResult .read (building 255#8) = .nextResponse t v) ∧ ∃ t, commandResult .build built = .next t :=
  ⟨by decide, ⟨_, _, rfl⟩, ⟨_, rfl⟩⟩

theorem witness_TableReadAfterWrite : (0xFE#8 : Byte) ≠ 0xFF#8 := by decide

/-- A valid table with a rebuild accepted; a build with GEN; a written entry. -/
theorem witness_TableConstantWhileValid :
    (BlockInv { built with schedule := [.port], stream := [0x000#10] } ∧ built.tv = true) ∧
    AcceptsBuild { built with schedule := [.port], stream := [0x000#10] } ∧
    ¬AppliesReset { built with schedule := [.port], stream := [0x000#10] } ∧
    (∃ t, step { built with schedule := [.port], stream := [0x000#10] } = .next t) ∧
    (BlockInv (building 7#8) ∧ (building 7#8).gbusy = true) ∧
    (building 7#8).table.get? (3#8 : Byte).toNat = some 0x0140#16 := by
  refine ⟨⟨built_inv.congr rfl rfl rfl rfl, rfl⟩, ⟨rfl, rfl, 0x000#10, rfl, by decide⟩, ?_, step_total _,
    ⟨building_inv _, rfl⟩, by decide⟩
  rintro ⟨c, h⟩
  exact Turn.noConfusion h

/-- GEN changes an entry: the second clause of TableConstantWhileValid has a case. -/
theorem witness_gen_changes_entry : ({ State.reset with table := [(1, 0#16)], gbusy := true, gi := 1#8 } : State).genStep.tableRead 1#8 ≠
    ({ State.reset with table := [(1, 0#16)], gbusy := true, gi := 1#8 } : State).tableRead 1#8 := by decide

theorem witness_FlagAndIndexTransitions : (∃ t, step { State.reset with stream := [0x000#10] } = .next t) ∧
    AcceptsBuild { State.reset with stream := [0x000#10] } ∧ AppliesReset { built with schedule := [.reset none] } ∧
    ¬AcceptsBuild State.reset ∧ ¬AppliesReset State.reset ∧
    ({ building 255#8 with schedule := [.gen] } : State).turn = .gen := by
  refine ⟨⟨_, rfl⟩, ⟨rfl, rfl, 0x000#10, rfl, by decide⟩, ⟨none, rfl⟩, ?_, ?_, rfl⟩
  · rintro ⟨-, -, w, h, -⟩; simp [State.presented, State.reset] at h
  · rintro ⟨c, h⟩; exact Turn.noConfusion h

theorem witness_OnlyInitUpdateResetWriteCrc :
    ∃ t, step { State.reset with crc := 0#16, stream := [0x100#10] } = .next t ∧ t.crc ≠ 0#16 := ⟨_, rfl, by decide⟩

theorem witness_ResponseExactlyOnRead : (∃ t, step { State.reset with stream := [0x300#10] } = .next t ∧ t.rspValid = true) ∧
    (∃ t, step { State.reset with stream := [0x100#10] } = .next t ∧ t.rspValid = false) :=
  ⟨⟨_, rfl, by decide⟩, ⟨_, rfl, by decide⟩⟩

theorem witness_ResetStateValues : State.reset.tv = false ∧
    SameButTable State.reset { State.reset with table := [(0, 0x1234#16)], resets := 3 } ∧
    ∃ t, step State.reset = .next t := ⟨rfl, rfl, step_total _⟩

theorem witness_ResetFromAnyState : ({ building 99#8 with schedule := [.reset (some [0x100#10])] } : State).turn =
    .reset (some [0x100#10]) := by decide

theorem witness_NoTableWithoutBuild : State.reset.tv = false ∧ State.reset.gbusy = false ∧ ResetFree State.reset.schedule ∧
    (∀ w ∈ ({ State.reset with stream := [0x300#10] } : State).stream, decode w ≠ .build) ∧
    ∃ t, run 2 { State.reset with stream := [0x300#10] } = .next t :=
  ⟨rfl, rfl, fun _ h => absurd h List.not_mem_nil, by decide, ⟨_, rfl⟩⟩

theorem witness_EveryStepKeepsInvariant : BlockInv built ∧ BlockInv (building 255#8) ∧ (∃ t, step built = .next t) ∧
    ∃ t, step (building 255#8) = .next t := ⟨built_inv, building_inv _, step_total _, step_total _⟩

theorem witness_RunningBuildOnlyAdvances : BlockInv { building 255#8 with schedule := [.gen] } ∧ (building 255#8).gbusy = true ∧
    (∃ t, step { building 255#8 with schedule := [.gen] } = .next t) ∧ ¬AppliesReset { building 255#8 with schedule := [.gen] } := by
  refine ⟨(building_inv _).congr rfl rfl rfl rfl, rfl, step_total _, ?_⟩
  rintro ⟨c, h⟩
  exact Turn.noConfusion h

/-- No GEN step, one short of all, and all of them. -/
theorem witness_BuildIs256GenSteps (n : Nat) (hn : n = 0 ∨ n = 255 ∨ n = 256) :
    State.reset.gbusy = false ∧ decode 0x0FF#10 = .build ∧ n ≤ 256 ∧
    ({ State.reset with stream := [0x0FF#10], schedule := .port :: (List.replicate n .gen ++ []) } : State).stream = 0x0FF#10 :: [] :=
  ⟨rfl, by decide, by omega, rfl⟩

theorem witness_CoEnabledStepsCommute : BlockInv (building 7#8) ∧ (building 7#8).gbusy = true ∧
    (building 7#8).ready .init = true ∧ (building 7#8).ready .read = true := ⟨building_inv _, rfl, rfl, rfl⟩

/-- INIT and READ under two schedules, one with an idle GEN turn first. -/
theorem witness_ScheduleNeverChangesResult : BlockInv { State.reset with stream := [0x100#10, 0x300#10] } ∧
    ResetFree [.port, .port] ∧ ResetFree [.gen, .port, .port] ∧
    (∃ t, run 2 { State.reset with stream := [0x100#10, 0x300#10], schedule := [.port, .port] } = .next t ∧ EndOfRun t) ∧
    (∃ t, run 3 { State.reset with stream := [0x100#10, 0x300#10], schedule := [.gen, .port, .port] } = .next t ∧ EndOfRun t) := by
  refine ⟨?_, ?_, ?_, ⟨_, rfl, rfl, rfl⟩, ⟨_, rfl, rfl, rfl⟩⟩
  · exact ⟨rfl, by decide, fun _ => rfl, by decide, by decide, fun _ _ h => by simp [State.reset, Memory.get?] at h⟩
  · intro x hx c h; subst h; simp at hx
  · intro x hx c h; subst h; simp at hx

theorem witness_RefinesAtomicBuild : BlockInv { built with stream := [0x231#10, 0x300#10], schedule := [] } ∧ ResetFree [] ∧
    ∃ t, run 2 { built with stream := [0x100#10, 0x300#10], schedule := [] } = .next t :=
  ⟨witness_inv_built _ _, fun _ h => absurd h List.not_mem_nil, ⟨_, rfl⟩⟩

/-- With a table, during a build, and booting from reset. -/
theorem witness_BootedStreamCompletes : BlockInv { built with stream := [0x231#10], schedule := [] } ∧
    ({ built with stream := [0x231#10] } : State).bootOk = true ∧
    ({ building 9#8 with stream := [0x231#10] } : State).bootOk = true ∧
    ({ State.reset with stream := [0x100#10, 0x000#10, 0x231#10] } : State).bootOk = true ∧
    ({ State.reset with stream := [0x100#10, 0x231#10, 0x000#10] } : State).bootOk = false :=
  ⟨witness_inv_built _ _, by decide⟩

theorem witness_StuckUntilReset : Stuck { State.reset with stream := [0x231#10, 0x000#10] } ∧
    ResetFree State.reset.schedule ∧
    Stuck { State.reset with stream := [0x231#10], schedule := [.reset none] } ∧
    ({ State.reset with stream := [0x231#10] } : State).commandEnabled = false :=
  ⟨⟨⟨0x231#10, 0x31#8, rfl, by decide⟩, rfl, rfl⟩, fun _ h => absurd h List.not_mem_nil,
    ⟨⟨0x231#10, 0x31#8, rfl, by decide⟩, rfl, rfl⟩, by decide⟩

theorem witness_EndedRunWaits : EndOfRun built ∧ ResetFree built.schedule :=
  ⟨⟨rfl, rfl⟩, fun _ h => absurd h List.not_mem_nil⟩

theorem witness_HeldCommandRunsAfterBuild : BlockInv { building 255#8 with stream := [0x231#10], schedule := [] } ∧
    BlockInv { building 0#8 with stream := [0x000#10], schedule := [] } ∧ (building 255#8).gbusy = true ∧
    decode 0x231#10 = .update 0x31#8 ∧ decode 0x000#10 = .build :=
  ⟨witness_inv_building _ _ _, witness_inv_building _ _ _, rfl, by decide, by decide⟩

theorem witness_TableContentsNeverObserved : BlockInv { State.reset with table := written 3 } ∧
    BlockInv { State.reset with table := written 5, resets := 4 } ∧
    SameButTable { State.reset with table := written 3 } { State.reset with table := written 5, resets := 4 } ∧
    ∃ t, run 1 { State.reset with table := written 3 } = .next t :=
  ⟨⟨by decide, by decide, fun _ => rfl, by decide, by decide, (building_inv 3#8).written⟩,
    ⟨by decide, by decide, fun _ => rfl, by decide, by decide, (building_inv 5#8).written⟩, rfl, ⟨_, rfl⟩⟩

theorem witness_InitForgetsEarlierCrc : ({ built with crc := 0x4B37#16, stream := [0x1AA#10, 0x300#10] } : State).presented = some 0x1AA#10 ∧
    decode 0x1AA#10 = .init ∧ ∃ t, run 2 { built with crc := 0x4B37#16, stream := [0x1AA#10, 0x300#10] } = .next t ∧ t.stream ≠ [0x1AA#10, 0x300#10] :=
  ⟨rfl, by decide, ⟨_, rfl, by decide⟩⟩

theorem witness_EntryRule : entry 0xFF#8 = entry 0xFF#8 := rfl

theorem witness_UpdLinearOverXor : lowByte 0x1234#16 ^^^ 0x00#8 = lowByte 0x1235#16 ^^^ 0x01#8 ∧
    0x1234#16 >>> 8 = 0x1235#16 >>> 8 := by decide

theorem witness_UpdBijectivePerByte : upd 0xFFFF#16 0x31#8 = upd 0xFFFF#16 0x31#8 := rfl

theorem witness_ChunkingInvariance : (∃ t, exec .read built = .next t) ∧ (∃ t, exec .build built = .next t) ∧
    ({ building 7#8 with schedule := [.gen] } : State).turn = .gen ∧
    ∃ t, step { building 7#8 with schedule := [.gen] } = .next t := ⟨⟨_, rfl⟩, ⟨_, rfl⟩, rfl, step_total _⟩

theorem witness_FeedFoldsBytes :
    BlockInv { built with stream := (Pseudo.feed [0x31#8, 0x32#8]).words ++ [0x300#10], schedule := List.replicate 2 .port ++ [.gen] } ∧
    built.tv = true := ⟨witness_inv_built _ _, rfl⟩

theorem witness_ComputeRespondsChecksum :
    BlockInv { built with stream := (Pseudo.compute [0x31#8]).words ++ [], schedule := List.replicate (1 + 2) .port ++ [] } ∧
    built.tv = true ∧ (Pseudo.compute [0x31#8]).words = [0x100#10, 0x231#10, 0x300#10] :=
  ⟨witness_inv_built _ _, rfl, by decide⟩

/-- P2: with no table. -/
theorem witness_EmptyBufferRespondsSeed :
    ({ State.reset with stream := [0x100#10, 0x300#10] } : State).stream = (Pseudo.compute []).words ++ [] := by decide

theorem witness_StreamingRespondsRunningChecksums :
    BlockInv { built with stream := Pseudo.new.words ++ feedAndRead [[0x31#8], []] ++ [], schedule := List.replicate (1 + (feedAndRead [[0x31#8], []]).length) .port ++ [] } ∧ built.tv = true ∧
    feedAndRead [[0x31#8], []] = [0x231#10, 0x300#10, 0x300#10] := ⟨witness_inv_built _ _, rfl, by decide⟩

/-- The BUILD in the middle, and a schedule without RESET. -/
theorem witness_RebuildKeepsComputation :
    BlockInv { built with stream := [encode .init] ++ (Pseudo.feed [0x31#8]).words ++ [encode .build] ++ (Pseudo.feed []).words ++ [encode .read], schedule := [] } ∧ built.tv = true ∧ ResetFree [] ∧
    ∃ k, ({ built with stream := [encode .init] ++ (Pseudo.feed [0x31#8]).words ++ [encode .build] ++ (Pseudo.feed []).words ++ [encode .read] } :
      State).workLeft = k ∧ k = 260 :=
  ⟨witness_inv_built _ _, rfl, fun _ h => absurd h List.not_mem_nil, ⟨_, rfl, by decide⟩⟩

end Sys2Proof.Tests
end

/-! PROOFS. The family of 10_state.md: the frame of the commands, who writes CRC, the flags and GI, the invariant, and that the
contents of TABLE are never observed. -/

namespace Sys2Proof.Machine

/-! ## What a command's effect and response leave unchanged -/

theorem State.effect_update (s : State) (b : Byte) :
    s.effect (.update b) = s.setCrc (combine s.crc (s.tableRead (tableIndex s.crc b))) := rfl

/-- CRC is written by INIT and UPDATE alone (R10). -/
theorem State.effect_crc_of_ne (s : State) {i : Instr} (hinit : i ≠ .init) (hupd : ∀ b, i ≠ .update b) :
    (s.effect i).crc = s.crc := by
  cases i with
  | build => rfl
  | init => exact absurd rfl hinit
  | update b => exact absurd rfl (hupd b)
  | read => rfl

/-- The flags and GI are written by BUILD alone (R12, R13, R14). -/
theorem State.effect_flags_of_ne_build (s : State) {i : Instr} (hi : i ≠ .build) :
    (s.effect i).tv = s.tv ∧ (s.effect i).gbusy = s.gbusy ∧ (s.effect i).gi = s.gi := by
  cases i with
  | build => exact absurd rfl hi
  | init => exact ⟨rfl, rfl, rfl⟩
  | update b => exact ⟨rfl, rfl, rfl⟩
  | read => exact ⟨rfl, rfl, rfl⟩

/-- READ alone responds (R35). -/
theorem State.response_of_ne_read (s : State) {i : Instr} (hi : i ≠ .read) : s.response i = none := by
  cases i with
  | build => rfl
  | init => rfl
  | update b => rfl
  | read => exact absurd rfl hi

@[simp] theorem State.rspValid_accept (s : State) (r : Option Word) : (s.accept r).rspValid = r.isSome := rfl

@[simp] theorem State.rspValid_hold (s : State) : s.hold.rspValid = false := rfl

/-- Settles O16: the accepted command by the frame of its effect and response, the held one by `State.hold`. -/
theorem commandFrame : Obligations.CommandFrame := by
  intro i s t h
  rcases exec_cases h with ⟨-, rfl⟩ | ⟨-, rfl⟩
  · refine ⟨State.tableRead_congr (by simp) (by simp), by simp, s.effect_crc_of_ne, s.effect_flags_of_ne_build,
      fun hi => ?_, by simp⟩
    simp [s.response_of_ne_read hi]
  · exact ⟨State.tableRead_congr rfl rfl, by simp⟩

/-- Settles O22: of everything a step can do, only an accepted INIT or UPDATE and RESET touch CRC. -/
theorem onlyInitUpdateResetWriteCrc : Obligations.OnlyInitUpdateResetWriteCrc := by
  intro s t h hcrc
  rcases step_cases h with ⟨-, rfl⟩ | ⟨-, -, rfl⟩ | ⟨w, hturn, hw, hready, rfl⟩ | ⟨w, -, -, -, rfl⟩ | ⟨c, hturn, -⟩
  · exact absurd s.takeTurn.genStep_frame.1 hcrc
  · exact absurd rfl hcrc
  · refine .inr ⟨hturn, w, hw, ?_⟩
    by_contra hother
    obtain ⟨hinit, hupd⟩ := not_or.mp hother
    refine hcrc (s.takeTurn.effect_crc_of_ne hinit fun b hb => hupd ⟨⟨b, hb⟩, ?_⟩)
    simpa [hb] using hready
  · exact absurd rfl hcrc
  · exact .inl ⟨c, hturn⟩

/-! ## The flags and GI over one step -/

theorem not_acceptsBuild_of_gen {s : State} (h : s.turn = .gen) : ¬AcceptsBuild s := by
  rintro ⟨hport, -⟩
  simp [h] at hport

theorem not_acceptsBuild_of_presented_none {s : State} (hw : s.presented = none) : ¬AcceptsBuild s := by
  rintro ⟨-, -, w, hw', -⟩
  simp [hw] at hw'

/-- With a word presented at the port's turn, the step accepts a BUILD exactly when the word is one and its condition holds. -/
theorem acceptsBuild_iff {s : State} {w : CmdWord} (hturn : s.turn = .port) (hw : s.presented = some w) :
    AcceptsBuild s ↔ decode w = .build ∧ s.ready (decode w) = true := by
  constructor
  · rintro ⟨-, hidle, w', hw', hdec⟩
    obtain rfl : w = w' := Option.some.inj (hw.symm.trans hw')
    exact ⟨hdec, by simp [hdec, hidle]⟩
  · rintro ⟨hdec, hready⟩
    exact ⟨hturn, by simpa [hdec] using hready, w, hw, hdec⟩

theorem not_appliesReset_of_gen {s : State} (h : s.turn = .gen) : ¬AppliesReset s := by
  rintro ⟨c, hc⟩
  simp [h] at hc

theorem not_appliesReset_of_port {s : State} (h : s.turn = .port) : ¬AppliesReset s := by
  rintro ⟨c, hc⟩
  simp [h] at hc

/-- What a step from `s` to `t` can do to TV, GBUSY and GI (R12, R13, R14). -/
inductive FlagStep (s t : State) : Prop where
  /-- A BUILD is accepted (R42). -/
  | buildAccepted (ha : AcceptsBuild s) (htv : t.tv = false) (hgbusy : t.gbusy = true) (hgi : t.gi = 0#8)
  /-- GEN writes the last entry (R43). -/
  | buildEnds (hturn : s.turn = .gen) (hbusy : s.gbusy = true) (hlast : s.gi = 255#8)
      (htv : t.tv = true) (hgbusy : t.gbusy = false) (hgi : t.gi = 0#8)
  /-- GEN writes an entry before the last (R43). -/
  | buildAdvances (hturn : s.turn = .gen) (hbusy : s.gbusy = true) (hinner : s.gi ≠ 255#8)
      (htv : t.tv = s.tv) (hgbusy : t.gbusy = true) (hgi : t.gi = s.gi + 1#8)
  /-- RESET (R70). -/
  | reset (c : Option (List CmdWord)) (hturn : s.turn = .reset c)
      (htv : t.tv = false) (hgbusy : t.gbusy = false) (hgi : t.gi = 0#8)
  /-- Any other step leaves all three. -/
  | unchanged (hnb : ¬AcceptsBuild s) (hnr : ¬AppliesReset s) (hng : ¬(s.turn = .gen ∧ s.gbusy = true))
      (htv : t.tv = s.tv) (hgbusy : t.gbusy = s.gbusy) (hgi : t.gi = s.gi)

/-- The step of GEN, by whether it is idle and, if not, by which entry it writes. -/
theorem flagStep_gen {s : State} (hturn : s.turn = .gen) : FlagStep s s.takeTurn.genStep := by
  cases hbusy : s.gbusy with
  | false =>
    rw [State.genStep_idle (s := s.takeTurn) hbusy]
    exact .unchanged (not_acceptsBuild_of_gen hturn) (not_appliesReset_of_gen hturn) (by simp [hbusy]) rfl rfl rfl
  | true =>
    by_cases hlast : s.gi = 255#8
    · rw [State.genStep_last (s := s.takeTurn) hbusy hlast]
      exact .buildEnds hturn hbusy hlast rfl rfl rfl
    · rw [State.genStep_inner (s := s.takeTurn) hbusy hlast]
      exact .buildAdvances hturn hbusy hlast rfl hbusy rfl

/-- A step of the port other than the acceptance of a BUILD. -/
theorem FlagStep.port_unchanged {s t : State} (hturn : s.turn = .port) (hnb : ¬AcceptsBuild s)
    (htv : t.tv = s.tv) (hgbusy : t.gbusy = s.gbusy) (hgi : t.gi = s.gi) : FlagStep s t :=
  .unchanged hnb (not_appliesReset_of_port hturn) (by simp [hturn]) htv hgbusy hgi

/-- Every step is one of those. -/
theorem step_flags {s t : State} (h : step s = .next t) : FlagStep s t := by
  rcases step_cases h with ⟨hturn, rfl⟩ | ⟨hturn, hw, rfl⟩ | ⟨w, hturn, hw, hready, rfl⟩ |
    ⟨w, hturn, hw, hready, rfl⟩ | ⟨c, hturn, rfl⟩
  · exact flagStep_gen hturn
  · exact .port_unchanged hturn (not_acceptsBuild_of_presented_none hw) rfl rfl rfl
  · by_cases hbuild : decode w = .build
    · have ha : AcceptsBuild s := (acceptsBuild_iff hturn hw).mpr ⟨hbuild, hready⟩
      rw [hbuild]
      exact .buildAccepted ha rfl rfl rfl
    · obtain ⟨htv, hgbusy, hgi⟩ := s.takeTurn.effect_flags_of_ne_build hbuild
      exact .port_unchanged hturn (fun ha => hbuild ((acceptsBuild_iff hturn hw).mp ha).1) htv hgbusy hgi
  · exact .port_unchanged hturn (fun ha => by simp [((acceptsBuild_iff hturn hw).mp ha).2] at hready) rfl rfl rfl
  · exact .reset c hturn rfl rfl rfl

/-- Settles O21: the five clauses read off each of the five things a step can do to the flags and GI, which exclude each other
by whose turn it is. -/
theorem flagAndIndexTransitions : Obligations.FlagAndIndexTransitions := by
  intro s t h
  cases step_flags h with
  | buildAccepted ha htv hgbusy hgi =>
    have hturn : s.turn = .port := ha.1
    simp [ha, hturn, htv, hgbusy, hgi]
  | buildEnds hturn hbusy hlast htv hgbusy hgi =>
    simp [not_acceptsBuild_of_gen hturn, not_appliesReset_of_gen hturn, hturn, hbusy, hlast, htv, hgbusy, hgi]
  | buildAdvances hturn hbusy hinner htv hgbusy hgi =>
    simp [not_acceptsBuild_of_gen hturn, not_appliesReset_of_gen hturn, hturn, hbusy, hinner, htv, hgbusy, hgi]
  | reset c hturn htv hgbusy hgi =>
    have hr : AppliesReset s := ⟨c, hturn⟩
    have hnb : ¬AcceptsBuild s := fun ha => not_appliesReset_of_port ha.1 hr
    simp [hr, hnb, hturn, htv, hgbusy, hgi]
  | unchanged hnb hnr hng htv hgbusy hgi =>
    refine ⟨?_, ?_, fun hor => (hor.elim hnb hnr).elim, fun hg hb => absurd ⟨hg, hb⟩ hng, fun _ _ _ => hgi⟩
    · rw [htv]
      exact ⟨fun hv => .inr ⟨hv, hnb, hnr⟩, fun hor => hor.elim (fun hg => absurd ⟨hg.1, hg.2.1⟩ hng) (·.1)⟩
    · rw [hgbusy]
      exact ⟨fun hb => .inr ⟨hb, fun hg => hng ⟨hg.1, hb⟩, hnr⟩, fun hor => hor.elim (absurd · hnb) (·.1)⟩

/-! ## The invariant -/

/-- A block with nothing written, no flag set and GI at 0 meets the invariant (R19). -/
theorem BlockInv.of_cleared {s : State} (htable : s.table = []) (htv : s.tv = false) (hgbusy : s.gbusy = false)
    (hgi : s.gi = 0#8) : BlockInv s where
  canonical := by rw [htable]; rfl
  notBoth := by simp [htv]
  idleIndex := fun _ => hgi
  building := by simp [hgbusy]
  valid := by simp [htv]
  written := by simp [htable, Memory.get?]

/-- Settles O27: RESET leaves nothing written and the flags and GI clear. -/
theorem resetMeetsInvariant : Obligations.ResetMeetsInvariant := BlockInv.of_cleared rfl rfl rfl rfl

/-- Reading a table entry by a byte after a write at another byte's index, or at the same one. -/
theorem Memory.get?_put_byte (m : Memory) (i j : Byte) (v : Word) :
    (m.put i.toNat v).get? j.toNat = if j = i then some v else m.get? j.toNat := by
  split
  · next h => rw [h, Memory.get?_put_same]
  · next h => exact Memory.get?_put_other m v fun e => h (BitVec.eq_of_toNat_eq e)

/-- With the build running, the entries up to and including GI are written after GEN's write. -/
theorem BlockInv.get?_put_gi {s : State} (h : BlockInv s) (hbusy : s.gbusy = true) {j : Byte} (hj : j ≤ s.gi) :
    (s.table.put s.gi.toNat (entry s.gi)).get? j.toNat = some (entry j) := by
  rw [Memory.get?_put_byte]
  split
  · next heq => rw [heq]
  · next hne => exact h.building hbusy j (by bv_omega)

/-- GEN writes nothing but ENTRY (R46). -/
theorem BlockInv.written_put_gi {s : State} (h : BlockInv s) (j : Byte) (v : Word)
    (hv : (s.table.put s.gi.toNat (entry s.gi)).get? j.toNat = some v) : v = entry j := by
  rw [Memory.get?_put_byte] at hv
  split at hv
  · next heq => rw [heq]; exact (Option.some.inj hv).symm
  · exact h.written j v hv

/-- GEN keeps the invariant: below the last entry the build is one entry further, at the last one every entry is there (R44). -/
theorem BlockInv.genStep {s : State} (h : BlockInv s) : BlockInv s.genStep := by
  cases hbusy : s.gbusy with
  | false =>
    rw [State.genStep_idle hbusy]
    exact h.congr rfl rfl rfl rfl
  | true =>
    have hcanon : (s.table.put s.gi.toNat (entry s.gi)).wf = true := Memory.wf_put _ s.gi.isLt h.canonical
    have htv : s.tv = false := by simpa [hbusy] using h.notBoth
    by_cases hlast : s.gi = 255#8
    · rw [State.genStep_last hbusy hlast]
      exact {
        canonical := hcanon
        notBoth := by simp
        idleIndex := fun _ => rfl
        building := by simp
        valid := fun _ j => h.get?_put_gi hbusy (by bv_omega)
        written := h.written_put_gi }
    · rw [State.genStep_inner hbusy hlast]
      exact {
        canonical := hcanon
        notBoth := by simp [htv]
        idleIndex := by simp [hbusy]
        building := fun _ j hj => h.get?_put_gi hbusy (by simp at hj; bv_omega)
        valid := by simp [htv]
        written := h.written_put_gi }

/-- The effect of every command keeps the invariant: only BUILD touches the flags, and it leaves a build with no entry due. -/
theorem BlockInv.effect {s : State} (h : BlockInv s) (i : Instr) : BlockInv (s.effect i) := by
  by_cases hi : i = .build
  · subst hi
    exact {
      canonical := h.canonical
      notBoth := by simp [State.effect]
      idleIndex := fun _ => rfl
      building := fun _ j hj => absurd hj (by simp [State.effect])
      valid := by simp [State.effect]
      written := h.written }
  · obtain ⟨htv, hgbusy, hgi⟩ := s.effect_flags_of_ne_build hi
    exact h.congr (s.effect_table i) htv hgbusy hgi

/-- Every step keeps the invariant (R44). -/
theorem BlockInv.step {s t : State} (h : BlockInv s) (hs : step s = .next t) : BlockInv t := by
  have hturn : BlockInv s.takeTurn := h.congr rfl rfl rfl rfl
  rcases step_cases hs with ⟨-, rfl⟩ | ⟨-, -, rfl⟩ | ⟨w, -, -, -, rfl⟩ | ⟨w, -, -, -, rfl⟩ | ⟨c, -, rfl⟩
  · exact hturn.genStep
  · exact h.congr rfl rfl rfl rfl
  · exact (hturn.effect (decode w)).congr rfl rfl rfl rfl
  · exact h.congr rfl rfl rfl rfl
  · exact .of_cleared rfl rfl rfl rfl

/-- While TV = 1 two blocks that meet the invariant read the same table, ENTRY (R46). -/
theorem BlockInv.tableRead_eq {s t : State} (hs : BlockInv s) (ht : BlockInv t) (hsv : s.tv = true) (htv : t.tv = true)
    (j : Byte) : t.tableRead j = s.tableRead j := by
  rw [State.tableRead_of_get? (hs.valid hsv j), State.tableRead_of_get? (ht.valid htv j)]

/-! ## States that differ only in TABLE -/

/-- The second state as the first with another table and another count of RESETs. -/
theorem sameButTable_iff {s t : State} :
    SameButTable s t ↔ ∃ m r, t = { s with table := m, resets := r } := by
  constructor
  · exact fun h => ⟨_, _, h⟩
  · rintro ⟨m, r, rfl⟩
    rfl

section
variable {s t : State} (h : SameButTable s t)
include h

theorem SameButTable.turn : t.turn = s.turn := by
  obtain ⟨m, r, rfl⟩ := sameButTable_iff.mp h; rfl

theorem SameButTable.presented : t.presented = s.presented := by
  obtain ⟨m, r, rfl⟩ := sameButTable_iff.mp h; rfl

theorem SameButTable.crc : t.crc = s.crc := by
  obtain ⟨m, r, rfl⟩ := sameButTable_iff.mp h; rfl

theorem SameButTable.tv : t.tv = s.tv := by
  obtain ⟨m, r, rfl⟩ := sameButTable_iff.mp h; rfl

theorem SameButTable.ready (i : Instr) : t.ready i = s.ready i := by
  obtain ⟨m, r, rfl⟩ := sameButTable_iff.mp h; cases i <;> rfl

theorem SameButTable.response (i : Instr) : t.response i = s.response i := by
  obtain ⟨m, r, rfl⟩ := sameButTable_iff.mp h; cases i <;> rfl

theorem SameButTable.takeTurn : SameButTable s.takeTurn t.takeTurn := by
  obtain ⟨m, r, rfl⟩ := sameButTable_iff.mp h; rfl

theorem SameButTable.note (e : Event) : SameButTable (s.note e) (t.note e) := by
  obtain ⟨m, r, rfl⟩ := sameButTable_iff.mp h; rfl

theorem SameButTable.startBuild : SameButTable s.startBuild t.startBuild := by
  obtain ⟨m, r, rfl⟩ := sameButTable_iff.mp h; rfl

theorem SameButTable.setCrc (v : Word) : SameButTable (s.setCrc v) (t.setCrc v) := by
  obtain ⟨m, r, rfl⟩ := sameButTable_iff.mp h; rfl

theorem SameButTable.accept (rsp : Option Word) : SameButTable (s.accept rsp) (t.accept rsp) := by
  obtain ⟨m, r, rfl⟩ := sameButTable_iff.mp h; rfl

theorem SameButTable.applyReset (c : Option (List CmdWord)) : SameButTable (s.applyReset c) (t.applyReset c) := by
  obtain ⟨m, r, rfl⟩ := sameButTable_iff.mp h; rfl

/-- GEN writes the table without reading it. -/
theorem SameButTable.genStep : SameButTable s.genStep t.genStep := by
  obtain ⟨m, r, rfl⟩ := sameButTable_iff.mp h
  unfold State.genStep
  split
  · dsimp only
    split <;> rfl
  · rfl

/-- UPDATE alone reads the table, and only while TV = 1. -/
theorem SameButTable.effect {i : Instr} (hready : s.ready i = true)
    (hread : s.tv = true → ∀ j : Byte, t.tableRead j = s.tableRead j) : SameButTable (s.effect i) (t.effect i) := by
  cases i with
  | build => exact h.startBuild
  | init => exact h.setCrc Config.seed
  | update b =>
    rw [State.effect_update, State.effect_update, hread hready, h.crc]
    exact h.setCrc _
  | read => exact h

/-- One step keeps two states alike but for the table, if they read the same where TV = 1. -/
theorem SameButTable.step {u : State} (hread : s.tv = true → ∀ j : Byte, t.tableRead j = s.tableRead j)
    (hs : step s = .next u) : ∃ u', step t = .next u' ∧ SameButTable u u' := by
  rcases step_cases hs with ⟨hturn, rfl⟩ | ⟨hturn, hw, rfl⟩ | ⟨w, hturn, hw, hready, rfl⟩ |
    ⟨w, hturn, hw, hready, rfl⟩ | ⟨c, hturn, rfl⟩
  · exact ⟨_, step_gen (h.turn.trans hturn), h.takeTurn.genStep⟩
  · exact ⟨_, step_port_empty (h.turn.trans hturn) (h.presented.trans hw), h.takeTurn.note .waiting⟩
  · rw [step_port (h.turn.trans hturn) (h.presented.trans hw),
      exec_accepted (by rw [State.takeTurn_ready, h.ready, hready]), h.takeTurn.response]
    exact ⟨_, rfl, (h.takeTurn.effect (by simpa using hready) hread).accept _⟩
  · rw [step_port (h.turn.trans hturn) (h.presented.trans hw),
      exec_held (by rw [State.takeTurn_ready, h.ready, hready])]
    exact ⟨_, rfl, h.takeTurn.note .held⟩
  · exact ⟨_, step_reset (h.turn.trans hturn), h.takeTurn.applyReset c⟩

end

/-- Settles O24: the reset values are the definition's, and a step from TV = 0 reads no entry. -/
theorem resetStateValues : Obligations.ResetStateValues := by
  refine ⟨⟨rfl, rfl, rfl, rfl, fun _ => rfl⟩, fun s s' t htv hsame hs => hsame.step (fun hv => ?_) hs⟩
  simp [htv] at hv

/-- A simulation over the steps of a run, packaged once: a relation that every step carries over, every run carries over. -/
theorem run_simulates {R : State → State → Prop}
    (hstep : ∀ s s' t, R s s' → step s = .next t → ∃ t', step s' = .next t' ∧ R t t') {k : Nat} {s s' t : State}
    (hR : R s s') (h : run k s = .next t) : ∃ t', run k s' = .next t' ∧ R t t' := by
  induction k generalizing s s' with
  | zero =>
    rw [run_zero] at h
    injection h with h
    exact ⟨s', rfl, h ▸ hR⟩
  | succ k ih =>
    obtain ⟨u, hu, hrun⟩ := run_succ_cases h
    obtain ⟨u', hu', hR'⟩ := hstep s s' u hR hu
    rw [run_succ hu']
    exact ih hR' hrun

/-- The relation that runs keep: both states meet the invariant, and they differ in the table alone. -/
structure InvSameButTable (s s' : State) : Prop where
  left : BlockInv s
  right : BlockInv s'
  same : SameButTable s s'

/-- Where an entry is read TV = 1, and there the invariant makes it ENTRY in both states. -/
theorem InvSameButTable.step {s s' t : State} (h : InvSameButTable s s') (hs : step s = .next t) :
    ∃ t', step s' = .next t' ∧ InvSameButTable t t' := by
  obtain ⟨t', hs', hsame⟩ :=
    h.same.step (fun hv => h.left.tableRead_eq h.right hv (h.same.tv.trans hv)) hs
  exact ⟨t', hs', h.left.step hs, h.right.step hs', hsame⟩

/-- Settles O38, by simulation: the relation of two states that meet the invariant and differ in the table alone. -/
theorem tableContentsNeverObserved : Obligations.TableContentsNeverObserved := by
  intro k s s' t hs hs' hsame hrun
  obtain ⟨t', hrun', hrel⟩ := run_simulates (fun _ _ _ => InvSameButTable.step) ⟨hs, hs', hsame⟩ hrun
  exact ⟨t', hrun', hrel.same⟩

end Sys2Proof.Machine

/-! PROOFS. The family of 20_memory.md: what a write and a step do to the entries of TABLE. -/

namespace Sys2Proof.Machine

/-- Settles O19: reading after a write at the same index and at another one, and the write's frame by definition. -/
theorem tableReadAfterWrite : Obligations.TableReadAfterWrite :=
  fun s i v => ⟨s.tableRead_tableWrite_same i v, fun _ hj => s.tableRead_tableWrite_other v hj, rfl⟩

/-! ## The entries of TABLE over one step -/

@[simp] theorem State.tableRead_note (s : State) (e : Event) (j : Byte) : (s.note e).tableRead j = s.tableRead j := rfl

@[simp] theorem State.tableRead_advanceGi (s : State) (j : Byte) : s.advanceGi.tableRead j = s.tableRead j := rfl

@[simp] theorem State.tableRead_finishBuild (s : State) (j : Byte) : s.finishBuild.tableRead j = s.tableRead j := rfl

/-- TableRead after TableWrite at any index (R21). -/
theorem State.tableRead_tableWrite (s : State) (i j : Byte) (v : Word) :
    (s.tableWrite i v).tableRead j = if j = i then v else s.tableRead j := by
  split
  · next h => rw [h, State.tableRead_tableWrite_same]
  · next h => exact s.tableRead_tableWrite_other v h

/-- A busy generator writes the entry at GI and no other (R43). -/
theorem State.tableRead_genStep {s : State} (hbusy : s.gbusy = true) (j : Byte) :
    s.genStep.tableRead j = if j = s.gi then entry s.gi else s.tableRead j := by
  by_cases hlast : s.gi = 255#8
  · rw [State.genStep_last hbusy hlast, State.tableRead_note, State.tableRead_finishBuild, State.tableRead_tableWrite]
  · rw [State.genStep_inner hbusy hlast, State.tableRead_note, State.tableRead_advanceGi, State.tableRead_tableWrite]

/-- What a step from `s` to `t` can do to the entries of TABLE (R22, R43, R70). -/
inductive TableStep (s t : State) : Prop where
  /-- RESET leaves every entry unspecified. -/
  | reset (hr : AppliesReset s) (hread : ∀ j : Byte, t.tableRead j = Config.unspecifiedEntry (s.resets + 1) j)
  /-- GEN with GBUSY = 1 writes the entry at GI. -/
  | genWrites (hturn : s.turn = .gen) (hbusy : s.gbusy = true)
      (hread : ∀ j : Byte, t.tableRead j = if j = s.gi then entry s.gi else s.tableRead j)
  /-- Any other step leaves every entry. -/
  | unchanged (hread : ∀ j : Byte, t.tableRead j = s.tableRead j)

/-- Every step is one of those. -/
theorem step_table {s t : State} (h : step s = .next t) : TableStep s t := by
  rcases step_cases h with ⟨hturn, rfl⟩ | ⟨-, -, rfl⟩ | ⟨w, -, -, -, rfl⟩ | ⟨w, -, -, -, rfl⟩ | ⟨c, hturn, rfl⟩
  · cases hbusy : s.gbusy with
    | false =>
      rw [State.genStep_idle (s := s.takeTurn) hbusy]
      exact .unchanged fun _ => rfl
    | true => exact .genWrites hturn hbusy (State.tableRead_genStep (s := s.takeTurn) hbusy)
  · exact .unchanged fun _ => rfl
  · exact .unchanged (State.tableRead_congr (by simp) (by simp))
  · exact .unchanged fun _ => rfl
  · exact .reset ⟨c, hturn⟩ fun _ => rfl

/-! ## The table while it is valid -/

/-- A running build excludes a valid table. -/
theorem BlockInv.tv_of_gbusy {s : State} (h : BlockInv s) (hbusy : s.gbusy = true) : s.tv = false := by
  simpa [hbusy] using h.notBoth

/-- While TV = 1 no step but RESET changes an entry: the only writer is a running build. -/
theorem tableRead_step_of_valid {s t : State} (h : BlockInv s) (htv : s.tv = true) (hs : step s = .next t)
    (hnr : ¬AppliesReset s) (j : Byte) : t.tableRead j = s.tableRead j := by
  cases step_table hs with
  | reset hr _ => exact absurd hr hnr
  | genWrites _ hbusy _ => exact absurd ⟨htv, hbusy⟩ h.notBoth
  | unchanged hread => exact hread j

/-- An entry changes only by RESET and by GEN with GBUSY = 1. -/
theorem writer_of_tableRead_ne {s t : State} {j : Byte} (hs : step s = .next t) (hne : t.tableRead j ≠ s.tableRead j) :
    AppliesReset s ∨ (s.turn = .gen ∧ s.gbusy = true) := by
  cases step_table hs with
  | reset hr _ => exact .inl hr
  | genWrites hturn hbusy _ => exact .inr ⟨hturn, hbusy⟩
  | unchanged hread => exact absurd (hread j) hne

/-- The acceptance of a BUILD clears TV (R42). -/
theorem AcceptsBuild.step_tv {s t : State} (ha : AcceptsBuild s) (hs : step s = .next t) : t.tv = false := by
  cases step_flags hs with
  | buildAccepted _ htv _ _ => exact htv
  | buildEnds hturn _ _ _ _ _ => exact absurd ha (not_acceptsBuild_of_gen hturn)
  | buildAdvances hturn _ _ _ _ _ => exact absurd ha (not_acceptsBuild_of_gen hturn)
  | reset _ _ htv _ _ => exact htv
  | unchanged hnb _ _ _ _ _ => exact absurd ha hnb

/-- A written entry keeps its value in every step but RESET: where GEN writes it again, both values are ENTRY of its index (R46). -/
theorem tableRead_step_of_written {s t : State} {j : Byte} {v : Word} (h : BlockInv s) (hs : step s = .next t)
    (hnr : ¬AppliesReset s) (hv : s.table.get? j.toNat = some v) : t.tableRead j = v := by
  cases step_table hs with
  | reset hr _ => exact absurd hr hnr
  | genWrites _ _ hread =>
    rw [hread]
    split
    · next hj => rw [← hj, h.written j v hv]
    · exact State.tableRead_of_get? hv
  | unchanged hread => rw [hread, State.tableRead_of_get? hv]

/-- Settles O20: by what a step can do to the entries and to the flags, and the invariant. -/
theorem tableConstantWhileValid : Obligations.TableConstantWhileValid :=
  ⟨fun _ _ h htv hs hnr => tableRead_step_of_valid h htv hs hnr,
    fun _ _ _ hs hne => writer_of_tableRead_ne hs hne,
    fun _ _ hs ha => ha.step_tv hs,
    fun _ h hbusy => h.tv_of_gbusy hbusy,
    fun _ _ _ _ h hs hnr hv => tableRead_step_of_written h hs hnr hv,
    fun _ h htv j => State.tableRead_of_get? (h.valid htv j)⟩

end Sys2Proof.Machine

/-! PROOFS. The family of 30_encoding.md: the fields of a word, the decoder and the encoder, the opcode map, the boundary, the
expansions of the pseudo-operations, and the acceptance of commands at the port. -/

namespace Sys2Proof

/-! ## The fields of a word -/

@[simp] theorem opField_append (op : BitVec 2) (d : Byte) : opField (op ++ d : BitVec (2 + 8)) = op :=
  BitVec.extractLsb'_append_eq_left

@[simp] theorem dataField_append (op : BitVec 2) (d : Byte) : dataField (op ++ d : BitVec (2 + 8)) = d :=
  BitVec.extractLsb'_append_eq_right

/-- A word is its two fields side by side (R32). -/
theorem opField_append_dataField (w : CmdWord) : (opField w ++ dataField w : BitVec (2 + 8)) = w :=
  BitVec.extractLsb'_append_extractLsb' (w := 2) (len := 8)

/-- The four values of `op`. -/
theorem opField_cases (w : CmdWord) :
    opField w = 0b00#2 ∨ opField w = 0b01#2 ∨ opField w = 0b10#2 ∨ opField w = 0b11#2 := by
  generalize opField w = op
  revert op
  decide

/-! ## The decoder, an equation per value of `op` -/

section
variable {w : CmdWord}

theorem decode_build (h : opField w = 0b00#2) : decode w = .build := by simp [decode, h]

theorem decode_init (h : opField w = 0b01#2) : decode w = .init := by simp [decode, h]

theorem decode_update (h : opField w = 0b10#2) : decode w = .update (dataField w) := by simp [decode, h]

theorem decode_read (h : opField w = 0b11#2) : decode w = .read := by simp [decode, h]

end

theorem Instr.wf_eq_true (i : Instr) : i.wf = true := by cases i <;> rfl

/-! ## The encoder -/

/-- The `op` field of the canonical word of a command (R33). -/
def Instr.op : Instr → BitVec 2
  | .build => 0b00#2
  | .init => 0b01#2
  | .update _ => 0b10#2
  | .read => 0b11#2

/-- The `data` field of the canonical word of a command (R34). -/
def Instr.data : Instr → Byte
  | .build => 0#8
  | .init => 0#8
  | .update b => b
  | .read => 0#8

theorem encode_eq_op_append_data (i : Instr) : encode i = (i.op ++ i.data : BitVec (2 + 8)) := by
  cases i <;> rfl

@[simp] theorem opField_encode (i : Instr) : opField (encode i) = i.op := by
  rw [encode_eq_op_append_data, opField_append]

@[simp] theorem dataField_encode (i : Instr) : dataField (encode i) = i.data := by
  rw [encode_eq_op_append_data, dataField_append]

/-- The decoder is a left inverse of the encoder: it reads from `op` which command it is, and UPDATE's operand from `data`. -/
theorem decode_encode (i : Instr) : decode (encode i) = i := by
  cases i with
  | build => exact decode_build (opField_encode _)
  | init => exact decode_init (opField_encode _)
  | update b => rw [decode_update (opField_encode _), dataField_encode, Instr.data]
  | read => exact decode_read (opField_encode _)

/-- The word of UPDATE `b` is 0x200 + b (R34). -/
theorem encode_update (b : Byte) : encode (.update b) = 0x200#10 + b.setWidth 10 := by
  have hsetWidth : b.setWidth 10 = (0#2 ++ b : BitVec (2 + 8)) := by
    rw [BitVec.setWidth_eq_append (by decide)]; rfl
  rw [hsetWidth]
  exact (BitVec.append_zero_add_zero_append (x := 0b10#2) (y := b)).symm

/-! ## The boundary -/

theorem commandWordOf_of_lt {n : Nat} (h : n < 1024) : commandWordOf n = .ok (BitVec.ofNat 10 n) := by
  simp [commandWordOf, fitsCommand, h]

theorem commandWordOf_of_le {n : Nat} (h : 1024 ≤ n) : commandWordOf n = .error (.commandTooWide n) := by
  simp [commandWordOf, fitsCommand, Nat.not_lt.mpr h]

/-- The table's number of a word, in 10 bits or more, is decoded as the word (log entry 6). -/
theorem decodeTableWord_toNat {n : Nat} (hn : 10 ≤ n) (w : CmdWord) : decodeTableWord n w.toNat = some (decode w) := by
  have hwide : w.toNat < 2 ^ n := Nat.lt_of_lt_of_le w.isLt (Nat.pow_le_pow_right (by decide) hn)
  simp [decodeTableWord, hwide, commandWordOf_of_lt w.isLt]

/-- A number that decodes fits the given bits and the port, and is decoded as its word (R69). -/
theorem decodeTableWord_eq_some {n k : Nat} {i : Instr} (h : decodeTableWord n k = some i) :
    k < 2 ^ n ∧ k < 1024 ∧ decode (BitVec.ofNat 10 k) = i := by
  by_cases hbits : k < 2 ^ n
  · by_cases hport : k < 1024
    · rw [decodeTableWord, if_pos hbits, commandWordOf_of_lt hport] at h
      exact ⟨hbits, hport, Option.some.inj h⟩
    · rw [decodeTableWord, if_pos hbits, commandWordOf_of_le (Nat.le_of_not_lt hport)] at h
      cases h
  · rw [decodeTableWord, if_neg hbits] at h
    cases h

/-- Settles O1: the decoder inverts the encoder, and the table's form of a word is decoded as the word. -/
theorem decodeEncodeRoundTrip : Obligations.DecodeEncodeRoundTrip := fun i =>
  ⟨i.wf_eq_true, decode_encode i, by rw [decodeTableWord_toNat (by decide), decode_encode],
    by rw [decodeTableWord_toNat (by decide), decode_encode]⟩

/-! ## The opcode map -/

/-- The row of the opcode map for a value of `op`: its mask selects `op` and leaves `data` free (R33). -/
def opRowOf (op : BitVec 2) : OpRow := ⟨(0b11#2 ++ 0#8 : BitVec (2 + 8)), (op ++ 0#8 : BitVec (2 + 8))⟩

/-- The opcode map is one row per value of `op`. -/
theorem exists_opRowOf_of_mem {r : OpRow} (h : r ∈ opcodeMap) : ∃ op, r = opRowOf op := by
  revert r
  decide

theorem opRowOf_mem (op : BitVec 2) : opRowOf op ∈ opcodeMap := by
  revert op
  decide

/-- The word belongs to the row of its `op` and to no other: masked, a word is its `op` over a `data` of 0. -/
theorem covers_opRowOf (op : BitVec 2) (w : CmdWord) : (opRowOf op).covers w = true ↔ opField w = op := by
  have hmasked : w &&& (0b11#2 ++ 0#8 : BitVec (2 + 8)) = (opField w ++ 0#8 : BitVec (2 + 8)) := by
    conv_lhs => rw [← opField_append_dataField w, BitVec.and_append, BitVec.and_zero]
    rw [show (0b11#2 : BitVec 2) = BitVec.allOnes 2 from rfl, BitVec.and_allOnes]
  rw [OpRow.covers, opRowOf, hmasked, beq_iff_eq]
  exact BitVec.append_left_inj 0#8

theorem opRow_eq_opRowOf_op (i : Instr) : opRow i = opRowOf i.op := by
  cases i with
  | build => rfl
  | init => rfl
  | update b => rw [Instr.op]; rfl
  | read => rfl

theorem op_decode (w : CmdWord) : (decode w).op = opField w := by
  rcases opField_cases w with h | h | h | h
  · rw [decode_build h, h, Instr.op]
  · rw [decode_init h, h, Instr.op]
  · rw [decode_update h, h, Instr.op]
  · rw [decode_read h, h, Instr.op]

theorem opRow_decode (w : CmdWord) : opRow (decode w) = opRowOf (opField w) := by
  rw [opRow_eq_opRowOf_op, op_decode]

/-- Settles O2: the rows are the values of `op`, and a word is covered by the row of its own alone. -/
theorem everyWordHasOneRow : Obligations.EveryWordHasOneRow := by
  intro w
  rw [opRow_decode]
  refine ⟨opRowOf_mem _, (covers_opRowOf _ w).mpr rfl, fun r hr hcovers => ?_,
    decode_build, decode_init, decode_update, decode_read⟩
  obtain ⟨op, rfl⟩ := exists_opRowOf_of_mem hr
  rw [(covers_opRowOf op w).mp hcovers]

/-- The zero extension as `{0x00, b}` (R34). -/
theorem Machine.zext16_eq_append (b : Byte) : Machine.zext16 b = (0x00#8 ++ b : BitVec (8 + 8)) :=
  BitVec.setWidth_eq_append (by decide)

theorem Machine.toNat_zext16 (b : Byte) : (Machine.zext16 b).toNat = b.toNat :=
  BitVec.toNat_setWidth_of_le (by decide)

/-- Settles O4: the decoder's equations on a word given as its two fields. -/
theorem dataFieldOperandOrIgnored : Obligations.DataFieldOperandOrIgnored := by
  refine ⟨fun d => ⟨?_, decode_build (opField_append _ d), decode_init (opField_append _ d),
    decode_read (opField_append _ d), Machine.zext16_eq_append d, Machine.toNat_zext16 d, encode_update d⟩, rfl, rfl, rfl⟩
  rw [decode_update (opField_append _ d), dataField_append]

end Sys2Proof

namespace Sys2Proof.Machine

/-! ## The pseudo-operations -/

theorem words_append (is js : List Instr) : words (is ++ js) = words is ++ words js := List.map_append

/-- FEED is one UPDATE word per byte (R37). -/
theorem Pseudo.feed_words (S : List Byte) : (Pseudo.feed S).words = S.map (fun b => 0x200#10 + b.setWidth 10) := by
  rw [Pseudo.words, Pseudo.expand, Sys2Proof.Machine.words, List.map_map]
  exact List.map_congr_left fun b _ => encode_update b

/-- COMPUTE is NEW, FEED and RESULT (R37). -/
theorem Pseudo.compute_words (S : List Byte) :
    (Pseudo.compute S).words = Pseudo.new.words ++ (Pseudo.feed S).words ++ Pseudo.result.words :=
  words_append (.init :: S.map .update) [.read]

/-- Settles O6: an expansion for each pseudo-operation. -/
theorem pseudoOperationWords : Obligations.PseudoOperationWords := fun S =>
  ⟨Pseudo.feed_words S, rfl, rfl, rfl, Pseudo.compute_words S⟩

/-! ## The port's turn -/

/-- With nothing scheduled and an idle generator the turn is the port's (log entry 2). -/
theorem State.turn_port_of_idle {s : State} (hsched : s.schedule = []) (hidle : s.gbusy = false) : s.turn = .port := by
  rw [State.turn_nil hsched]
  simp [State.freeTurn, hidle]

/-- Settles O7: the step at the port's turn, and the two ways the turn is the port's. -/
theorem stepRunsPresentedCommand : Obligations.StepRunsPresentedCommand :=
  ⟨fun _ w hturn hw => ⟨(decode w).wf_eq_true, step_port hturn hw, rfl⟩,
    fun _ _ hsched => State.turn_cons hsched,
    fun _ hsched hidle => State.turn_port_of_idle hsched hidle⟩

/-- A number that fits is placed as its word (log entry 3). -/
theorem State.withFetchWord_eq_presentNext (s : State) {n k : Nat} (hbits : k < 2 ^ n) (hport : k < 1024) :
    s.withFetchWord n k = s.presentNext (BitVec.ofNat 10 k) := by
  rw [State.withFetchWord, if_pos hbits, commandWordOf_of_lt hport]

/-- A word presented next is what the next step runs, and taking its turn leaves the schedule as it was (log entry 3). -/
theorem step_presentNext (s : State) (c : CmdWord) :
    step (s.presentNext c) = exec (decode c) { s with stream := c :: s.stream, tick := s.tick + 1 } :=
  step_port (State.turn_cons rfl) rfl

/-- Settles O8: a number that decodes is placed as its word, which the next step runs. -/
theorem placedWordRunsNext : Obligations.PlacedWordRunsNext := by
  intro s n k i h
  obtain ⟨hbits, hport, rfl⟩ := decodeTableWord_eq_some h
  rw [s.withFetchWord_eq_presentNext hbits hport, step_presentNext]

/-! ## The acceptance of commands -/

theorem State.presented_eq_some {s : State} {w : CmdWord} (hw : s.presented = some w) :
    s.stream = w :: s.stream.tail :=
  List.eq_cons_of_mem_head? hw

/-- `cmd_ready` from the `op` field and the flags alone, a clause per value of `op` (R38). -/
theorem State.cmdReady_of_opField (s : State) (w : CmdWord) :
    (opField w = 0b00#2 → s.cmdReady w = !s.gbusy) ∧ (opField w = 0b01#2 → s.cmdReady w = true) ∧
      (opField w = 0b10#2 → s.cmdReady w = s.tv) ∧ (opField w = 0b11#2 → s.cmdReady w = true) := by
  rw [State.cmdReady_eq_ready]
  exact ⟨fun h => by rw [decode_build h, State.ready_build], fun h => by rw [decode_init h, State.ready_init],
    fun h => by rw [decode_update h, State.ready_update], fun h => by rw [decode_read h, State.ready_read]⟩

/-- Settles O10: of everything a step can do, only the acceptance moves the stream; GEN writes no CRC and no response, and
a waiting or held turn of the port leaves the whole block. -/
theorem commandsAcceptedInOrder : Obligations.CommandsAcceptedInOrder := by
  refine ⟨State.cmdReady_of_opField, fun s t hs hnr => ?_⟩
  rcases step_cases hs with ⟨hturn, rfl⟩ | ⟨-, -, rfl⟩ | ⟨w, hturn, hw, hready, rfl⟩ | ⟨w, -, -, -, rfl⟩ | ⟨c, hturn, -⟩
  · obtain ⟨hcrc, hstream, -, hresponses, -, -⟩ := s.takeTurn.genStep_frame
    exact .inl ⟨hstream, hcrc, hresponses, fun hport => by simp [hturn] at hport⟩
  · exact .inl ⟨rfl, rfl, rfl, fun _ => ⟨rfl, fun _ => rfl, rfl, rfl, rfl⟩⟩
  · exact .inr ⟨w, s.stream.tail, hturn, State.presented_eq_some hw, (s.cmdReady_eq_ready w).trans hready, by simp,
      step_port hturn hw ▸ hs⟩
  · exact .inl ⟨rfl, rfl, rfl, fun _ => ⟨rfl, fun _ => rfl, rfl, rfl, rfl⟩⟩
  · exact absurd ⟨c, hturn⟩ hnr

/-! ## The response channel -/

@[simp] theorem State.rsp_accept (s : State) (r : Option Word) : (s.accept r).rsp = r := rfl

/-- GEN never responds (R35). -/
@[simp] theorem State.rsp_genStep (s : State) : s.genStep.rsp = none := by
  unfold State.genStep
  split <;> rfl

/-- The next step accepts a READ, which is never held (R35, R52). -/
def AcceptsRead (s : State) : Prop := s.turn = .port ∧ ∃ w, s.presented = some w ∧ decode w = .read

/-- With a word presented at the port's turn, the step accepts a READ exactly when the word is one. -/
theorem acceptsRead_iff {s : State} {w : CmdWord} (hturn : s.turn = .port) (hw : s.presented = some w) :
    AcceptsRead s ↔ decode w = .read := by
  simp [AcceptsRead, hturn, hw]

theorem not_acceptsRead_of_turn {s : State} (h : s.turn ≠ .port) : ¬AcceptsRead s := fun ha => h ha.1

theorem not_acceptsRead_of_presented_none {s : State} (hw : s.presented = none) : ¬AcceptsRead s := by
  simp [AcceptsRead, hw]

/-- What a step from `s` to `t` does on the response channel (R31, R35). -/
inductive ResponseStep (s t : State) : Prop where
  /-- A READ is accepted and responds CRC. -/
  | responds (ha : AcceptsRead s) (hrsp : t.rsp = some s.crc) (hresponses : t.responses = s.responses ++ [s.crc])
  /-- Any other step delivers nothing. -/
  | silent (hna : ¬AcceptsRead s) (hrsp : t.rsp = none) (hresponses : t.responses = s.responses)

/-- Every step is one of those. -/
theorem step_response {s t : State} (h : step s = .next t) : ResponseStep s t := by
  rcases step_cases h with ⟨hturn, rfl⟩ | ⟨-, hw, rfl⟩ | ⟨w, hturn, hw, -, rfl⟩ | ⟨w, hturn, hw, hheld, rfl⟩ |
    ⟨c, hturn, rfl⟩
  · obtain ⟨-, -, -, hresponses, -, -⟩ := s.takeTurn.genStep_frame
    exact .silent (not_acceptsRead_of_turn (by simp [hturn])) (State.rsp_genStep _) hresponses
  · exact .silent (not_acceptsRead_of_presented_none hw) rfl rfl
  · by_cases hread : decode w = .read
    · rw [hread]
      exact .responds ((acceptsRead_iff hturn hw).mpr hread) rfl rfl
    · have hnone : s.takeTurn.response (decode w) = none := State.response_of_ne_read _ hread
      rw [hnone]
      exact .silent (mt (acceptsRead_iff hturn hw).mp hread) rfl (by simp)
  · refine .silent (fun ha => ?_) rfl rfl
    simp [(acceptsRead_iff hturn hw).mp ha] at hheld
  · exact .silent (not_acceptsRead_of_turn (by simp [hturn])) rfl rfl

/-- Settles O23: both directions and both deliveries read off what a step does on the response channel. -/
theorem responseExactlyOnRead : Obligations.ResponseExactlyOnRead := by
  intro s t h
  cases step_response h with
  | responds ha hrsp hresponses =>
    have hvalid : t.rspValid = true := by simp [State.rspValid, hrsp]
    exact ⟨iff_of_true hvalid ha, fun _ => ⟨hrsp, hresponses⟩, by simp [hvalid]⟩
  | silent hna hrsp hresponses =>
    have hvalid : t.rspValid = false := by simp [State.rspValid, hrsp]
    exact ⟨iff_of_false (by simp [hvalid]) hna, by simp [hvalid], fun _ => ⟨hrsp, hresponses⟩⟩

end Sys2Proof.Machine

/-! PROOFS. The family of 40_table_generator.md: the pure functions BITSTEP and ENTRY, the command BUILD, the step GEN, the whole
build, and the refinement of the block with an atomic BUILD. -/

namespace Sys2Proof.Machine

/-- Settles O28: the step lemma of the invariant. -/
theorem everyStepKeepsInvariant : Obligations.EveryStepKeepsInvariant := fun _ _ h hs => h.step hs

/-! ## Refinement of the block with an atomic BUILD (R48) -/

theorem Abstract.run_append (a : Abstract) (xs ys : List CmdWord) :
    a.run (xs ++ ys) = (a.run xs).bind (·.run ys) := by
  induction xs generalizing a with
  | nil => rfl
  | cons w xs ih => simp [Abstract.run, ih, Option.bind_assoc]

@[simp] theorem Abstract.run_singleton (a : Abstract) (w : CmdWord) : a.run [w] = a.run1 (decode w) := by
  simp [Abstract.run]

/-- GEN is invisible where a running build counts as done. -/
theorem State.abstract_genStep (s : State) : s.genStep.abstract = s.abstract := by
  cases hbusy : s.gbusy with
  | false => rw [State.genStep_idle hbusy]; rfl
  | true =>
    by_cases hlast : s.gi = 255#8
    · rw [State.genStep_last hbusy hlast]
      simp [State.abstract, hbusy]
    · rw [State.genStep_inner hbusy hlast]
      simp [State.abstract]

/-- An accepted command does in the block what it does in the block with atomic BUILD: an UPDATE is accepted only while TV = 1, where
the table is ENTRY. -/
theorem BlockInv.abstract_run1 {s : State} (h : BlockInv s) {i : Instr} (hready : s.ready i = true) :
    s.abstract.run1 i = some ((s.effect i).accept (s.response i)).abstract := by
  cases i with
  | build => simp [Abstract.run1, State.abstract, State.effect, State.response]
  | init => simp [Abstract.run1, State.abstract, State.effect, State.response]
  | update b =>
    have htv : s.tv = true := hready
    have hread : s.tableRead (tableIndex s.crc b) = entry (tableIndex s.crc b) :=
      State.tableRead_of_get? (h.valid htv _)
    simp [Abstract.run1, State.abstract, State.effect, State.response, htv, hread, upd]
  | read => simp [Abstract.run1, State.abstract, State.effect, State.response]

/-- `t` comes from `s` by consuming some words of its stream, and shows what they do in the block with atomic BUILD. -/
def Refines (s t : State) : Prop :=
  ∃ done, s.stream = done ++ t.stream ∧ s.abstract.run done = some t.abstract

/-- Consuming no word and showing the same. -/
theorem Refines.of_eq {s t : State} (hstream : t.stream = s.stream) (habs : t.abstract = s.abstract) : Refines s t :=
  ⟨[], hstream.symm, congrArg some habs.symm⟩

theorem Refines.refl (s : State) : Refines s s := .of_eq rfl rfl

theorem Refines.trans {s t u : State} (hst : Refines s t) (htu : Refines t u) : Refines s u := by
  obtain ⟨ws, hws, hrun⟩ := hst
  obtain ⟨ws', hws', hrun'⟩ := htu
  exact ⟨ws ++ ws', by rw [hws, hws', List.append_assoc], by rw [Abstract.run_append, hrun]; exact hrun'⟩

/-- Every step but RESET refines: the acceptance of a command is that command, and any other step shows nothing. -/
theorem step_refines {s t : State} (h : BlockInv s) (hs : step s = .next t) (hnr : ¬AppliesReset s) :
    Refines s t := by
  rcases step_cases hs with ⟨-, rfl⟩ | ⟨-, -, rfl⟩ | ⟨w, -, hw, hready, rfl⟩ | ⟨w, -, -, -, rfl⟩ | ⟨c, hturn, -⟩
  · obtain ⟨-, hstream, -⟩ := s.takeTurn.genStep_frame
    exact .of_eq hstream s.takeTurn.abstract_genStep
  · exact .of_eq rfl rfl
  · have hturn : BlockInv s.takeTurn := h.congr rfl rfl rfl rfl
    refine ⟨[w], by simpa using State.presented_eq_some hw, ?_⟩
    rw [Abstract.run_singleton]
    exact hturn.abstract_run1 (by simpa using hready)
  · exact .of_eq rfl rfl
  · exact absurd ⟨c, hturn⟩ hnr

/-- Settles O33, by induction over the steps of the run: refinement is transitive, and the invariant and the absence of RESET go along. -/
theorem refinesAtomicBuild : Obligations.RefinesAtomicBuild := by
  intro k
  induction k with
  | zero =>
    intro s t _ _ hrun
    rw [run_zero] at hrun
    injection hrun with hst
    exact hst ▸ Refines.refl s
  | succ k ih =>
    intro s t h hfree hrun
    obtain ⟨u, hu, hrun⟩ := run_succ_cases hrun
    obtain ⟨hfree', hnr⟩ := hfree.step hu
    exact (step_refines h hu hnr).trans (ih u t (h.step hu) hfree' hrun)

/-! ## BUILD and GEN -/

/-- What the acceptance of a command does to the host's channels. -/
theorem accepted_accept (s : State) (i : Instr) :
    Accepted s ((s.effect i).accept (s.response i)) (s.response i) where
  stream := by simp
  responses := by simp
  port := rfl
  schedule := by simp
  counters := by simp

/-- Settles O11: with an idle generator BUILD is accepted, and its effect is the start of the build. -/
theorem buildStartsGenerator : Obligations.BuildStartsGenerator := fun s hidle =>
  ⟨_, exec_accepted (i := .build) (by simp [hidle]), rfl, rfl, rfl, rfl, fun _ => rfl, accepted_accept s .build⟩

/-- The flags and GI after GEN at the last entry (R43). -/
theorem State.genStep_flags_last {s : State} (hbusy : s.gbusy = true) (hlast : s.gi = 255#8) :
    s.genStep.gi = 0#8 ∧ s.genStep.gbusy = false ∧ s.genStep.tv = true := by
  rw [State.genStep_last hbusy hlast]
  exact ⟨rfl, rfl, rfl⟩

/-- GI + 1 does not overflow below the last entry (R43 corner case (c)). -/
theorem toNat_gi_succ {g : Byte} (hinner : g ≠ 255#8) : (g + 1#8).toNat = g.toNat + 1 := by
  bv_omega

/-- The flags and GI after GEN below the last entry (R43). -/
theorem State.genStep_flags_inner {s : State} (hbusy : s.gbusy = true) (hinner : s.gi ≠ 255#8) :
    s.genStep.gi.toNat = s.gi.toNat + 1 ∧ s.genStep.gbusy = true ∧ s.genStep.tv = s.tv := by
  rw [State.genStep_inner hbusy hinner]
  exact ⟨toNat_gi_succ hinner, hbusy, rfl⟩

/-- Settles O18: the frame of GEN, the entry a busy generator writes and its flags, and that an idle one does nothing. -/
theorem genWritesOneEntry : Obligations.GenWritesOneEntry := by
  refine ⟨fun _ _ => rfl, fun s hturn => ?_⟩
  obtain ⟨hcrc, hstream, -, hresponses, -, -⟩ := s.takeTurn.genStep_frame
  refine ⟨_, step_gen hturn, hcrc, hstream, hresponses, by simp [State.rspValid], fun hbusy => ?_, fun hidle => ?_⟩
  · have hread : ∀ j, s.takeTurn.genStep.tableRead j = if j = s.gi then entry s.gi else s.tableRead j :=
      State.tableRead_genStep (s := s.takeTurn) hbusy
    exact ⟨by simp [hread], fun j hj => by simp [hread, hj],
      State.genStep_flags_last (s := s.takeTurn) hbusy, State.genStep_flags_inner (s := s.takeTurn) hbusy⟩
  · rw [State.genStep_idle (s := s.takeTurn) hidle]
    exact ⟨rfl, fun _ => rfl, rfl, rfl, rfl⟩

/-- Settles O29: by what a step can do to the flags and GI; a BUILD is not accepted while GBUSY = 1. -/
theorem runningBuildOnlyAdvances : Obligations.RunningBuildOnlyAdvances := by
  intro s t h hbusy hs hnr
  have htvs : s.tv = false := h.tv_of_gbusy hbusy
  cases step_flags hs with
  | buildAccepted ha _ _ _ =>
    obtain ⟨-, hidle, -⟩ := ha
    simp [hbusy] at hidle
  | buildEnds hturn _ hlast htv hgbusy hgi => exact .inr ⟨hlast, hturn, htv, hgbusy, hgi⟩
  | buildAdvances _ _ hinner htv hgbusy hgi =>
    exact .inl ⟨hgbusy, htv.trans htvs, .inr (hgi ▸ toNat_gi_succ hinner)⟩
  | reset c hturn _ _ _ => exact absurd ⟨c, hturn⟩ hnr
  | unchanged _ _ _ htv hgbusy hgi => exact .inl ⟨hgbusy.trans hbusy, htv.trans htvs, .inl hgi⟩

/-! ## The whole build (R45) -/

/-- `t` is `s`, in which a build is at its first entry, after `n` GEN steps: the first `n` entries are written, the build is at entry
`n` or, at 256, over, and nothing else of the block or of the host's channels has changed. -/
structure BuiltUpTo (s : State) (n : Nat) (t : State) : Prop where
  crc : t.crc = s.crc
  stream : t.stream = s.stream
  responses : t.responses = s.responses
  entries : ∀ j : Byte, j.toNat < n → t.tableRead j = entry j
  running : n < 256 → t.tv = false ∧ t.gbusy = true ∧ t.gi.toNat = n
  ended : n = 256 → t.tv = true ∧ t.gbusy = false ∧ t.gi = 0#8

theorem BuiltUpTo.zero {s : State} (htv : s.tv = false) (hbusy : s.gbusy = true) (hgi : s.gi = 0#8) :
    BuiltUpTo s 0 s where
  crc := rfl
  stream := rfl
  responses := rfl
  entries := fun _ hj => absurd hj (Nat.not_lt_zero _)
  running := fun _ => ⟨htv, hbusy, by simp [hgi]⟩
  ended := nofun

/-- Each GEN step of a running build writes one entry more; the one at GI = 255 ends the build. -/
theorem BuiltUpTo.genStep {s t : State} {n : Nat} (h : BuiltUpTo s n t) (hn : n < 256) : BuiltUpTo s (n + 1) t.genStep := by
  obtain ⟨htv, hbusy, hgi⟩ := h.running hn
  obtain ⟨hcrc, hstream, -, hresponses, -, -⟩ := t.genStep_frame
  refine ⟨hcrc.trans h.crc, hstream.trans h.stream, hresponses.trans h.responses, fun j hj => ?_, fun hlt => ?_, fun hlast => ?_⟩
  · rw [State.tableRead_genStep hbusy]
    split
    · next heq => rw [heq]
    · next hne => exact h.entries j (by bv_omega)
  · obtain ⟨hgi', hbusy', htv'⟩ := State.genStep_flags_inner hbusy (by bv_omega)
    exact ⟨htv'.trans htv, hbusy', hgi'.trans (by rw [hgi])⟩
  · obtain ⟨hgi', hbusy', htv'⟩ := State.genStep_flags_last hbusy (by bv_omega)
    exact ⟨htv', hbusy', hgi'⟩

/-- Taking the turn changes nothing a build has to do with. -/
theorem BuiltUpTo.takeTurn {s t : State} {n : Nat} (h : BuiltUpTo s n t) : BuiltUpTo s n t.takeTurn :=
  ⟨h.crc, h.stream, h.responses, h.entries, h.running, h.ended⟩

/-- A build at its first entry, run for `n` scheduled GEN steps, is built up to `n`. -/
theorem run_gens_builtUpTo {s : State} (htv : s.tv = false) (hbusy : s.gbusy = true) (hgi : s.gi = 0#8) {n : Nat}
    {later : List Turn} (hsched : s.schedule = List.replicate n .gen ++ later) (hn : n ≤ 256) :
    ∃ t, run n s = .next t ∧ t.schedule = later ∧ BuiltUpTo s n t := by
  induction n generalizing later with
  | zero => exact ⟨s, rfl, hsched, .zero htv hbusy hgi⟩
  | succ n ih =>
    have hsplit : s.schedule = List.replicate n .gen ++ (.gen :: later) := by
      rw [hsched, List.replicate_succ', List.append_assoc, List.singleton_append]
    obtain ⟨t, hrun, hlater, hbuilt⟩ := ih hsplit (by omega)
    have hstep : step t = .next t.takeTurn.genStep := step_gen (State.turn_cons hlater)
    refine ⟨t.takeTurn.genStep, ?_, ?_, hbuilt.takeTurn.genStep (by omega)⟩
    · rw [run_add hrun, run_succ hstep, run_zero]
    · rw [step_schedule hstep, hlater, List.tail_cons]

/-- The step that accepts a BUILD starts the build (R42). -/
theorem AcceptsBuild.step_eq {s : State} (ha : AcceptsBuild s) : step s = .next (s.takeTurn.startBuild.accept none) := by
  obtain ⟨hturn, hidle, w, hw, hdec⟩ := ha
  rw [step_port hturn hw, hdec]
  exact exec_accepted (by simpa using hidle)

/-- Settles O30: the step that accepts the BUILD leaves a build at its first entry, and the GEN steps follow. -/
theorem buildIs256GenSteps : Obligations.BuildIs256GenSteps := by
  intro s w rest n later hidle hstream hw hsched hn
  have ha : AcceptsBuild s := ⟨State.turn_cons hsched, hidle, w, by simp [State.presented, hstream], hw⟩
  obtain ⟨t, hrun, hlater, hbuilt⟩ :=
    run_gens_builtUpTo (s := s.takeTurn.startBuild.accept none) (later := later) rfl rfl rfl (by simp [hsched]) hn
  exact ⟨t, (run_succ ha.step_eq n).trans hrun, hbuilt.crc, hbuilt.stream.trans (by simp [hstream]),
    hbuilt.responses.trans (by simp), hlater, hbuilt.entries, hbuilt.running, hbuilt.ended⟩

/-! ## BITSTEP (R40) -/

/-- The value BITSTEP XORs in for the bit it shifts out. -/
def feedback (b : Bool) : Word := if b then Config.polyReflected else 0#16

theorem feedback_xor (a b : Bool) : feedback (a ^^ b) = feedback a ^^^ feedback b := by
  revert a b
  decide

/-- The constant shows the bit shifted out in bit 15. -/
theorem getLsbD_feedback_15 (b : Bool) : (feedback b).getLsbD 15 = b := by
  revert b
  decide

theorem bitstep_eq_xor_feedback (w : Word) : bitstep w = (w >>> 1) ^^^ feedback (w.getLsbD 0) := by
  unfold bitstep feedback
  split
  · rfl
  · rw [BitVec.xor_zero]

/-- BITSTEP is linear: the bit shifted out, its feedback and the shift are. -/
theorem bitstep_xor (a b : Word) : bitstep (a ^^^ b) = bitstep a ^^^ bitstep b := by
  simp only [bitstep_eq_xor_feedback, BitVec.getLsbD_xor, feedback_xor, BitVec.ushiftRight_xor_distrib]
  ac_rfl

/-- Nothing is lost in BITSTEP: the bit shifted out stands in bit 15. -/
theorem getLsbD_bitstep_15 (w : Word) : (bitstep w).getLsbD 15 = w.getLsbD 0 := by
  rw [bitstep_eq_xor_feedback, BitVec.getLsbD_xor, getLsbD_feedback_15]
  simp

/-- Two words with the same bit 0 and the same shift are the same. -/
theorem eq_of_ushiftRight_one {a b : Word} (hlow : a.getLsbD 0 = b.getLsbD 0) (hshift : a >>> 1 = b >>> 1) : a = b := by
  refine BitVec.eq_of_getLsbD_eq fun i _ => ?_
  cases i with
  | zero => exact hlow
  | succ i => simpa [Nat.add_comm] using congrArg (·.getLsbD i) hshift

theorem bitstep_injective : Function.Injective bitstep := by
  intro a b h
  have hlow : a.getLsbD 0 = b.getLsbD 0 := by rw [← getLsbD_bitstep_15, h, getLsbD_bitstep_15]
  rw [bitstep_eq_xor_feedback, bitstep_eq_xor_feedback, hlow] at h
  exact eq_of_ushiftRight_one hlow ((BitVec.xor_left_inj _).mp h)

/-- Settles O40: the definition, linearity, and the rule's examples evaluated. -/
theorem bitstepRule : Obligations.BitstepRule := ⟨fun _ => rfl, bitstep_xor, by decide⟩

/-! ## ENTRY (R41) -/

theorem bitsteps_xor (n : Nat) (a b : Word) : bitsteps n (a ^^^ b) = bitsteps n a ^^^ bitsteps n b := by
  induction n generalizing a b with
  | zero => rfl
  | succ n ih => rw [bitsteps, bitstep_xor, ih]; rfl

theorem bitsteps_injective (n : Nat) : Function.Injective (bitsteps n) := by
  induction n with
  | zero => exact Function.injective_id
  | succ n ih => exact ih.comp bitstep_injective

theorem zext16_xor (a b : Byte) : zext16 (a ^^^ b) = zext16 a ^^^ zext16 b := BitVec.setWidth_xor

theorem zext16_injective : Function.Injective zext16 := by
  intro a b h
  apply BitVec.eq_of_toNat_eq
  rw [← toNat_zext16, h, toNat_zext16]

theorem entry_xor (a b : Byte) : entry (a ^^^ b) = entry a ^^^ entry b := by
  rw [entry, zext16_xor, bitsteps_xor]; rfl

theorem entry_injective : Function.Injective entry := (bitsteps_injective 8).comp zext16_injective

/-- Settles O41: the definition, linearity, injectivity, and the power-of-two entries evaluated. -/
theorem entryRule : Obligations.EntryRule :=
  ⟨fun _ => rfl, entry_xor, fun _ _ h => entry_injective h, by decide⟩

end Sys2Proof.Machine

/-! PROOFS. The family of 41_datapath.md: the datapath commands INIT, UPDATE and READ, the pure functions UPD and FOLD, and the
computations made of them. -/

namespace Sys2Proof.Machine

/-! ## States that differ only in CRC -/

section
variable (s : State) (c : Word)

theorem State.takeTurn_setCrc : (s.setCrc c).takeTurn = s.takeTurn.setCrc c := rfl

theorem State.note_setCrc (e : Event) : (s.setCrc c).note e = (s.note e).setCrc c := rfl

/-- RESET takes CRC back to the seed, whatever it was (R70). -/
theorem State.applyReset_setCrc (change : Option (List CmdWord)) : (s.setCrc c).applyReset change = s.applyReset change := rfl

/-- INIT takes CRC to the seed, whatever it was (R50). -/
theorem State.effect_init_setCrc : (s.setCrc c).effect .init = s.effect .init := rfl

/-- GEN neither reads nor writes CRC (R43). -/
theorem State.genStep_setCrc : (s.setCrc c).genStep = s.genStep.setCrc c := by
  cases hbusy : s.gbusy with
  | false => rw [State.genStep_idle hbusy, State.genStep_idle (s := s.setCrc c) hbusy, State.note_setCrc]
  | true =>
    by_cases hlast : s.gi = 255#8
    · rw [State.genStep_last hbusy hlast, State.genStep_last (s := s.setCrc c) hbusy hlast]
      rfl
    · rw [State.genStep_inner hbusy hlast, State.genStep_inner (s := s.setCrc c) hbusy hlast]
      rfl

end

/-- With an INIT presented, a step from another CRC leaves a state that differs in CRC alone, the stream unmoved, or the very same state:
INIT is never held, and INIT and RESET both overwrite CRC without reading it. -/
theorem step_setCrc_of_init (c : Word) {s t : State} {w : CmdWord} (hw : s.presented = some w) (hdec : decode w = .init)
    (hs : step s = .next t) :
    (step (s.setCrc c) = .next (t.setCrc c) ∧ t.stream = s.stream) ∨ step (s.setCrc c) = .next t := by
  rcases step_cases hs with ⟨hturn, rfl⟩ | ⟨-, hnone, -⟩ | ⟨w', hturn, hw', -, rfl⟩ | ⟨w', -, hw', hheld, -⟩ | ⟨r, hturn, rfl⟩
  · obtain ⟨-, hstream, -⟩ := s.takeTurn.genStep_frame
    refine .inl ⟨?_, hstream⟩
    rw [step_gen (s := s.setCrc c) hturn, State.takeTurn_setCrc, State.genStep_setCrc]
  · simp [hw] at hnone
  · obtain rfl : w = w' := Option.some.inj (hw.symm.trans hw')
    refine .inr ?_
    rw [step_port (s := s.setCrc c) hturn hw, hdec, State.takeTurn_setCrc, exec_accepted (State.ready_init _),
      State.effect_init_setCrc]
    rfl
  · obtain rfl : w = w' := Option.some.inj (hw.symm.trans hw')
    simp [hdec] at hheld
  · refine .inr ?_
    rw [step_reset (s := s.setCrc c) hturn, State.takeTurn_setCrc, State.applyReset_setCrc]

/-- What two runs from two values of CRC keep while they wait for the INIT at the head of `stream`: they differ in CRC alone, and not
even there once the stream is another. -/
def DifferUntilInit (stream : List CmdWord) (s s' : State) : Prop :=
  ∃ x, s' = s.setCrc x ∧ (s.stream ≠ stream → x = s.crc)

theorem DifferUntilInit.refl (stream : List CmdWord) (s : State) : DifferUntilInit stream s s := ⟨s.crc, rfl, fun _ => rfl⟩

/-- Every step keeps it: with the stream still there the INIT is presented, and otherwise the states are equal. -/
theorem DifferUntilInit.step {w : CmdWord} {rest : List CmdWord} (hdec : decode w = .init) {s s' t : State}
    (h : DifferUntilInit (w :: rest) s s') (hs : step s = .next t) :
    ∃ t', step s' = .next t' ∧ DifferUntilInit (w :: rest) t t' := by
  obtain ⟨x, rfl, hx⟩ := h
  by_cases hstream : s.stream = w :: rest
  · have hw : s.presented = some w := by simp [State.presented, hstream]
    rcases step_setCrc_of_init x hw hdec hs with ⟨hs', hsame⟩ | hs'
    · exact ⟨_, hs', x, rfl, fun hne => absurd (hsame.trans hstream) hne⟩
    · exact ⟨t, hs', .refl _ t⟩
  · have hcrc : s.setCrc x = s := by rw [hx hstream]; rfl
    exact ⟨t, by rw [hcrc, hs], .refl _ t⟩

/-- Settles O39, by simulation over the steps of the run: the relation of two states that differ in CRC until the INIT is accepted. -/
theorem initForgetsEarlierCrc : Obligations.InitForgetsEarlierCrc := by
  intro k s t c w hw hdec hrun
  have hstream : s.stream = w :: s.stream.tail := State.presented_eq_some hw
  have hstart : DifferUntilInit (w :: s.stream.tail) s (s.setCrc c) := ⟨c, rfl, fun hne => absurd hstream hne⟩
  obtain ⟨t', hrun', x, rfl, hx⟩ := run_simulates (fun _ _ _ => DifferUntilInit.step hdec) hstart hrun
  exact ⟨x, hrun', fun hne => hx (hstream ▸ hne)⟩

/-! ## The halves of a word -/

theorem lowByte_xor (c d : Word) : lowByte (c ^^^ d) = lowByte c ^^^ lowByte d := BitVec.extractLsb'_xor

@[simp] theorem lowByte_zext16 (b : Byte) : lowByte (zext16 b) = b := by
  rw [zext16_eq_append, lowByte, BitVec.extractLsb'_append_eq_right]

/-- The index of a lookup is `c[7:0] xor b` (R51). -/
theorem tableIndex_eq (c : Word) (b : Byte) : tableIndex c b = lowByte c ^^^ b := by
  rw [tableIndex, lowByte_xor, lowByte_zext16]

theorem getLsbD_lowByte (c : Word) (i : Nat) : (lowByte c).getLsbD i = (decide (i < 8) && c.getLsbD i) := by
  rw [lowByte, BitVec.getLsbD_extractLsb', Nat.zero_add]

/-- The high byte is what a right shift by 8 leaves (R51). -/
theorem highByte_eq (c : Word) : highByte c = lowByte (c >>> 8) := by
  refine BitVec.eq_of_getLsbD_eq fun i _ => ?_
  simp [highByte, lowByte]

@[simp] theorem zext16_ushiftRight_8 (b : Byte) : zext16 b >>> 8 = 0#16 := by
  refine BitVec.eq_of_getLsbD_eq fun i _ => ?_
  simp [zext16]

/-! ## UPD is eight BITSTEPs (R57) -/

/-- While the bits shifted out are 0, BITSTEP is the shift alone. -/
theorem bitsteps_eq_ushiftRight (n : Nat) (w : Word) (hlow : ∀ i < n, w.getLsbD i = false) : bitsteps n w = w >>> n := by
  induction n generalizing w with
  | zero => simp [bitsteps]
  | succ n ih =>
    have hbit : bitstep w = w >>> 1 := by
      rw [bitstep_eq_xor_feedback, hlow 0 (Nat.succ_pos n)]
      exact BitVec.xor_zero
    have hshift : ∀ i < n, (w >>> 1).getLsbD i = false := fun i hi => by
      rw [BitVec.getLsbD_ushiftRight]
      exact hlow (1 + i) (by omega)
    rw [bitsteps, hbit, ih (w >>> 1) hshift, ← BitVec.shiftRight_add, Nat.add_comm]

/-- A word split into the part above its low byte and its low byte: eight BITSTEPs shift the one and make the other's entry. -/
theorem bitsteps_eight (w : Word) : bitsteps 8 w = (w >>> 8) ^^^ entry (lowByte w) := by
  have hclear : ∀ i < 8, (w ^^^ zext16 (lowByte w)).getLsbD i = false := fun i hi => by
    rw [BitVec.getLsbD_xor, zext16, BitVec.getLsbD_setWidth, getLsbD_lowByte]
    simp [hi, show i < 16 by omega]
  calc bitsteps 8 w
      = bitsteps 8 ((w ^^^ zext16 (lowByte w)) ^^^ zext16 (lowByte w)) := by rw [BitVec.xor_assoc, BitVec.xor_self, BitVec.xor_zero]
    _ = ((w ^^^ zext16 (lowByte w)) >>> 8) ^^^ entry (lowByte w) := by
        rw [bitsteps_xor, bitsteps_eq_ushiftRight 8 _ hclear, entry]
    _ = (w >>> 8) ^^^ entry (lowByte w) := by
        rw [BitVec.ushiftRight_xor_distrib, zext16_ushiftRight_8, BitVec.xor_zero]

theorem upd_eq_bitsteps (c : Word) (b : Byte) : upd c b = bitsteps 8 (c ^^^ zext16 b) := by
  rw [bitsteps_eight, BitVec.ushiftRight_xor_distrib, zext16_ushiftRight_8, BitVec.xor_zero]
  rfl

/-- Settles O42: eight BITSTEPs of a word, of which the byte reaches only the low half. -/
theorem updIsEightBitsteps : Obligations.UpdIsEightBitsteps := upd_eq_bitsteps

/-! ## What follows for UPD (41_datapath.md section 6) -/

/-- UPD in the two parts of the register that it reads: its high byte, and its low byte with the input byte (R51). -/
theorem upd_eq (c : Word) (b : Byte) : upd c b = (c >>> 8) ^^^ entry (lowByte c ^^^ b) := by
  rw [upd, combine, tableIndex_eq]

theorem upd_xor (c d : Word) (a b : Byte) : upd (c ^^^ d) (a ^^^ b) = upd c a ^^^ upd d b := by
  rw [upd_eq_bitsteps, upd_eq_bitsteps, upd_eq_bitsteps, ← bitsteps_xor, zext16_xor]
  congr 1
  ac_rfl

/-- Settles O43: the parts of the register that UPD reads, and the linearity of BITSTEP. -/
theorem updLinearOverXor : Obligations.UpdLinearOverXor :=
  ⟨fun c b b' e hindex hhigh => by rw [upd_eq, upd_eq, hindex, hhigh], upd_xor⟩

theorem upd_injective (b : Byte) : Function.Injective (upd · b) := by
  intro c d h
  simp only [upd_eq_bitsteps] at h
  exact (BitVec.xor_left_inj _).mp (bitsteps_injective 8 h)

/-- Settles O44: BITSTEP loses nothing, and on finitely many values injective is bijective. -/
theorem updBijectivePerByte : Obligations.UpdBijectivePerByte := fun b =>
  ⟨fun _ _ h => upd_injective b h, Finite.surjective_of_injective (upd_injective b)⟩

/-- A register fed its own low byte looks up entry 0 and is shifted. -/
theorem upd_lowByte (c : Word) : upd c (lowByte c) = c >>> 8 := by
  rw [upd_eq, BitVec.xor_self, show entry 0#8 = 0#16 by decide, BitVec.xor_zero]

/-- A register fed both its bytes, low byte first, is shifted out. -/
theorem upd_both_bytes (c : Word) : upd (upd c (lowByte c)) (highByte c) = 0#16 := by
  rw [upd_lowByte, highByte_eq, upd_lowByte, ← BitVec.shiftRight_add]
  exact BitVec.ushiftRight_eq_zero (by decide)

theorem fold_append (c : Word) (S T : List Byte) : fold c (S ++ T) = fold (fold c S) T := by
  induction S generalizing c with
  | nil => rfl
  | cons b S ih => exact ih (upd c b)

theorem fold_zero_replicate (n : Nat) : fold 0#16 (List.replicate n 0#8) = 0#16 := by
  induction n with
  | zero => rfl
  | succ n ih => rwa [List.replicate_succ, fold, show upd 0#16 0#8 = 0#16 by decide]

/-- Settles O45: the checksum is the register, and the two bytes that follow shift it out. -/
theorem selfCheckLeavesZero : Obligations.SelfCheckLeavesZero :=
  ⟨upd_both_bytes, fun S => (fold_append Config.seed S _).trans (upd_both_bytes _), fold_zero_replicate⟩

/-- FOLD over a partition into chunks, chunk by chunk (R56). -/
theorem foldl_fold (c : Word) (chunks : List (List Byte)) : chunks.foldl fold c = fold c chunks.flatten := by
  induction chunks generalizing c with
  | nil => rfl
  | cons S chunks ih => rw [List.foldl_cons, List.flatten_cons, fold_append, ih]

/-- Settles O46: chunks of FOLD, the frame of READ and BUILD, and the frame of GEN. -/
theorem chunkingInvariance : Obligations.ChunkingInvariance := by
  refine ⟨fold_append, foldl_fold, fun s t h => ?_, fun s t h => ?_, fun s t hturn h => ?_⟩
  · obtain ⟨-, -, hcrc, -⟩ := commandFrame _ s t h
    exact hcrc nofun nofun
  · obtain ⟨-, -, hcrc, -⟩ := commandFrame _ s t h
    exact hcrc nofun nofun
  · rw [step_gen hturn] at h
    injection h with h
    obtain ⟨hcrc, -⟩ := s.takeTurn.genStep_frame
    exact h ▸ hcrc

/-! ## The commands INIT, UPDATE and READ -/

/-- Settles O12: INIT is never held, and its effect is on CRC alone. -/
theorem initLoadsSeed : Obligations.InitLoadsSeed :=
  ⟨fun d => decode_init (opField_append _ d),
    fun s => ⟨_, exec_accepted (State.ready_init s), rfl, fun _ => rfl, rfl, rfl, rfl, accepted_accept s .init⟩⟩

/-- Settles O14: READ is never held, responds CRC and has no effect. -/
theorem readRespondsCrc : Obligations.ReadRespondsCrc :=
  ⟨fun d => decode_read (opField_append _ d),
    fun s => ⟨_, exec_accepted (State.ready_read s), ⟨rfl, fun _ => rfl, rfl, rfl, rfl⟩, accepted_accept s .read⟩⟩

/-- While TV = 1 the lookup of UPDATE finds ENTRY, so that CRC becomes UPD (R46, R51). -/
theorem BlockInv.effect_update {s : State} (h : BlockInv s) (htv : s.tv = true) (b : Byte) :
    s.effect (.update b) = s.setCrc (upd s.crc b) := by
  rw [State.effect_update, State.tableRead_of_get? (h.valid htv _), upd]

/-- Settles O13: UPDATE is accepted or held by TV, and its effect is on CRC alone. -/
theorem updateFoldsByte : Obligations.UpdateFoldsByte := by
  refine ⟨fun b => ?_, fun s b htv => ?_, fun s b htv => ?_, upd_eq⟩
  · rw [decode_update (opField_append _ b), dataField_append]
  · refine ⟨_, exec_accepted (i := .update b) htv, rfl, fun h => ?_, fun _ => rfl, rfl, rfl, rfl, accepted_accept s (.update b)⟩
    rw [h.effect_update htv, State.accept_crc, State.setCrc_crc]
  · exact ⟨_, exec_held (i := .update b) htv, ⟨rfl, fun _ => rfl, rfl, rfl, rfl⟩, rfl, rfl⟩

/-- Settles O17: TV alone decides whether an UPDATE is accepted, and its effect is on CRC alone. -/
theorem updateControlIgnoresData : Obligations.UpdateControlIgnoresData := by
  refine ⟨fun s b b' c' => ?_, fun s b => ?_⟩
  · rcases Bool.eq_false_or_eq_true s.tv with htv | htv
    · exact ⟨_, _, exec_accepted (i := .update b) htv, exec_accepted (i := .update b') (s := s.setCrc c') htv⟩
    · exact ⟨_, c', exec_held (i := .update b) htv, exec_held (i := .update b') (s := s.setCrc c') htv⟩
  · rw [State.cmdReady_eq_ready, decode_encode, State.ready_update]

/-! ## Commands at scheduled turns of the port -/

/-- A scheduled turn of the port accepts the first word of the stream, if its acceptance condition holds (R38). -/
theorem step_accepts {s : State} {w : CmdWord} {ws : List CmdWord} {later : List Turn} (hstream : s.stream = w :: ws)
    (hsched : s.schedule = .port :: later) (hready : s.ready (decode w) = true) :
    step s = .next ((s.takeTurn.effect (decode w)).accept (s.takeTurn.response (decode w))) := by
  have hw : s.presented = some w := by simp [State.presented, hstream]
  rw [step_port (State.turn_cons hsched) hw]
  exact exec_accepted ((s.takeTurn_ready _).trans hready)

/-- `t` is `s` after commands other than BUILD, with `rest` and `later` left of the stream and the schedule: the block is unchanged
but for CRC. -/
structure AfterCommands (s t : State) (rest : List CmdWord) (later : List Turn) : Prop where
  table : t.table = s.table
  tv : t.tv = s.tv
  gbusy : t.gbusy = s.gbusy
  gi : t.gi = s.gi
  resets : t.resets = s.resets
  stream : t.stream = rest
  schedule : t.schedule = later

theorem AfterCommands.trans {s t u : State} {rest rest' : List CmdWord} {later later' : List Turn}
    (hst : AfterCommands s t rest later) (htu : AfterCommands t u rest' later') : AfterCommands s u rest' later' :=
  ⟨htu.table.trans hst.table, htu.tv.trans hst.tv, htu.gbusy.trans hst.gbusy, htu.gi.trans hst.gi,
    htu.resets.trans hst.resets, htu.stream, htu.schedule⟩

/-- With a valid table every command other than BUILD is accepted at its turn. -/
theorem step_command {s : State} {w : CmdWord} {ws : List CmdWord} {later : List Turn} (h : BlockInv s) (htv : s.tv = true)
    (hstream : s.stream = w :: ws) (hsched : s.schedule = .port :: later) (hw : decode w ≠ .build) :
    ∃ t, step s = .next t ∧ AfterCommands s t ws later ∧ s.abstract.run1 (decode w) = some t.abstract := by
  have hready : s.takeTurn.ready (decode w) = true := by
    cases hdec : decode w with
    | build => exact absurd hdec hw
    | init => rfl
    | update b => exact htv
    | read => rfl
  obtain ⟨htv', hgbusy, hgi⟩ := s.takeTurn.effect_flags_of_ne_build hw
  have hinv : BlockInv s.takeTurn := h.congr rfl rfl rfl rfl
  exact ⟨_, step_accepts hstream hsched hready,
    ⟨by simp, htv', hgbusy, hgi, by simp, by simp [hstream], by simp [hsched]⟩, hinv.abstract_run1 hready⟩

/-- With a valid table commands other than BUILD, each given its turn, are all accepted and do what they do in the block with atomic
BUILD (R48). -/
theorem run_commands {s : State} {ws rest : List CmdWord} {later : List Turn} (h : BlockInv s) (htv : s.tv = true)
    (hws : ∀ w ∈ ws, decode w ≠ .build) (hstream : s.stream = ws ++ rest)
    (hsched : s.schedule = List.replicate ws.length .port ++ later) :
    ∃ t, run ws.length s = .next t ∧ AfterCommands s t rest later ∧ s.abstract.run ws = some t.abstract := by
  induction ws generalizing s with
  | nil => exact ⟨s, rfl, ⟨rfl, rfl, rfl, rfl, rfl, hstream, hsched⟩, rfl⟩
  | cons w ws ih =>
    obtain ⟨u, hstep, hafter, habs⟩ := step_command h htv hstream hsched (hws w List.mem_cons_self)
    obtain ⟨t, hrun, hafter', habs'⟩ := ih (h.step hstep) (hafter.tv.trans htv)
      (fun v hv => hws v (List.mem_cons_of_mem w hv)) hafter.stream hafter.schedule
    refine ⟨t, (run_succ hstep _).trans hrun, hafter.trans hafter', ?_⟩
    rw [Abstract.run, habs]
    exact habs'

/-! ## The pseudo-operations in the block with atomic BUILD -/

theorem State.abstract_tv {s : State} (htv : s.tv = true) : s.abstract.tv = true := by simp [State.abstract, htv]

/-- Words of commands without BUILD decode to none. -/
theorem words_ne_build {is : List Instr} (his : .build ∉ is) : ∀ w ∈ words is, decode w ≠ .build := by
  intro w hw hdec
  obtain ⟨i, hi, rfl⟩ := List.mem_map.mp hw
  rw [decode_encode] at hdec
  exact his (hdec ▸ hi)

/-- One UPDATE word of the assembler, with the table there. -/
theorem Abstract.run_update {a : Abstract} (htv : a.tv = true) (b : Byte) (ws : List CmdWord) :
    a.run (encode (.update b) :: ws) = Abstract.run { a with crc := upd a.crc b } ws := by
  rw [Abstract.run, decode_encode, Abstract.run1, if_pos htv, Option.bind_some]

/-- FEED folds its bytes (R53). -/
theorem Abstract.run_feed {a : Abstract} (htv : a.tv = true) (S : List Byte) :
    a.run (Pseudo.feed S).words = some { a with crc := fold a.crc S } := by
  induction S generalizing a with
  | nil => rfl
  | cons b S ih => exact (Abstract.run_update htv b (Pseudo.feed S).words).trans (ih htv)

/-- NEW loads the seed (R50). -/
theorem Abstract.run_new_append (a : Abstract) (ws : List CmdWord) :
    a.run (Pseudo.new.words ++ ws) = Abstract.run { a with crc := Config.seed } ws := rfl

/-- RESULT responds CRC (R52). -/
theorem Abstract.run_result (a : Abstract) :
    a.run Pseudo.result.words = some { a with responses := a.responses ++ [a.crc] } := rfl

/-- Buffers, each fed and read: the responses are the running checksums, and CRC is that of all the bytes (R55). -/
theorem Abstract.run_feedAndRead {a : Abstract} (htv : a.tv = true) (chunks : List (List Byte)) :
    a.run (feedAndRead chunks) =
      some { a with crc := fold a.crc chunks.flatten, responses := a.responses ++ runningChecksums a.crc chunks } := by
  induction chunks generalizing a with
  | nil => simp [feedAndRead, Abstract.run, fold, runningChecksums]
  | cons S chunks ih =>
    rw [feedAndRead, Abstract.run_append, Abstract.run_append, Abstract.run_feed htv, Option.bind_some, Abstract.run_result,
      Option.bind_some]
    refine (ih (a := { a with crc := fold a.crc S, responses := a.responses ++ [fold a.crc S] }) htv).trans ?_
    rw [List.flatten_cons, fold_append, runningChecksums, List.append_assoc, List.singleton_append]

theorem feed_ne_build (S : List Byte) : ∀ w ∈ (Pseudo.feed S).words, decode w ≠ .build :=
  words_ne_build (by simp [Pseudo.expand])

theorem feedAndRead_ne_build (chunks : List (List Byte)) : ∀ w ∈ feedAndRead chunks, decode w ≠ .build := by
  induction chunks with
  | nil => simp [feedAndRead]
  | cons S chunks ih =>
    exact List.forall_mem_append.mpr ⟨List.forall_mem_append.mpr
      ⟨feed_ne_build S, words_ne_build (is := [.read]) (by decide)⟩, ih⟩

theorem length_feed (S : List Byte) : (Pseudo.feed S).words.length = S.length := by
  simp [Pseudo.feed_words]

/-- NEW before words without BUILD makes words without BUILD. -/
theorem new_append_ne_build {ws : List CmdWord} (hws : ∀ w ∈ ws, decode w ≠ .build) :
    ∀ w ∈ Pseudo.new.words ++ ws, decode w ≠ .build :=
  List.forall_mem_append.mpr ⟨words_ne_build (is := [.init]) (by decide), hws⟩

/-! ## The computations in the block -/

/-- With a valid table commands other than BUILD, each given its turn, leave the CRC and the responses that they leave in the block with
atomic BUILD. -/
theorem run_commands_result {s : State} {ws rest : List CmdWord} {later : List Turn} {a : Abstract} (h : BlockInv s)
    (htv : s.tv = true) (hws : ∀ w ∈ ws, decode w ≠ .build) (ha : s.abstract.run ws = some a) (hstream : s.stream = ws ++ rest)
    (hsched : s.schedule = List.replicate ws.length .port ++ later) :
    ∃ t, run ws.length s = .next t ∧ AfterCommands s t rest later ∧ t.crc = a.crc ∧ t.responses = a.responses := by
  obtain ⟨t, hrun, hafter, habs⟩ := run_commands h htv hws hstream hsched
  obtain rfl : a = t.abstract := Option.some.inj (ha.symm.trans habs)
  exact ⟨t, hrun, hafter, rfl, rfl⟩

/-- Settles O47: the run of the FEED's words in the block, and FEED in the block with atomic BUILD. -/
theorem feedFoldsBytes : Obligations.FeedFoldsBytes := by
  refine ⟨fun _ => rfl, fun _ _ _ => rfl, fun s S rest later h htv hstream hsched => ?_⟩
  obtain ⟨t, hrun, hafter, hcrc, hresponses⟩ := run_commands_result h htv (feed_ne_build S)
    (Abstract.run_feed (State.abstract_tv htv) S) hstream (by rw [hsched, length_feed])
  rw [length_feed] at hrun
  exact ⟨t, hrun, ⟨hcrc, State.tableRead_congr hafter.table hafter.resets, hafter.tv, hafter.gbusy, hafter.gi⟩,
    hafter.stream, hresponses, hafter.schedule⟩

/-- A scheduled RESULT responds CRC in every state and leaves it (R52). -/
theorem step_result {s : State} {rest : List CmdWord} {later : List Turn} (hstream : s.stream = Pseudo.result.words ++ rest)
    (hsched : s.schedule = .port :: later) :
    ∃ t, step s = .next t ∧ t.rsp = some s.crc ∧ t.responses = s.responses ++ [s.crc] ∧ t.crc = s.crc ∧ t.stream = rest ∧
      t.schedule = later :=
  ⟨_, step_accepts hstream hsched rfl, rfl, rfl, rfl, congrArg List.tail hstream, congrArg List.tail hsched⟩

/-- Settles O48: NEW and FEED as in the block with atomic BUILD, then RESULT. -/
theorem computeRespondsChecksum : Obligations.ComputeRespondsChecksum := by
  intro s S rest later h htv hstream hsched
  have hlength : (Pseudo.new.words ++ (Pseudo.feed S).words).length = S.length + 1 := congrArg (· + 1) (length_feed S)
  have habs : s.abstract.run (Pseudo.new.words ++ (Pseudo.feed S).words) =
      some { s.abstract with crc := fold Config.seed S } :=
    (s.abstract.run_new_append _).trans (Abstract.run_feed (a := { s.abstract with crc := Config.seed }) (State.abstract_tv htv) S)
  obtain ⟨u, hrun, hafter, hcrc, hresponses⟩ := run_commands_result h htv (new_append_ne_build (feed_ne_build S)) habs
    (rest := Pseudo.result.words ++ rest) (later := .port :: later)
    (by rw [hstream, Pseudo.compute_words, List.append_assoc])
    (by rw [hsched, hlength, List.replicate_succ', List.append_assoc, List.singleton_append])
  obtain ⟨t, hstep, ht⟩ := step_result hafter.stream hafter.schedule
  rw [hcrc, hresponses] at ht
  rw [hlength] at hrun
  exact ⟨t, by rw [run_add hrun 1, run_succ hstep, run_zero], ht⟩

/-- Settles O49: NEW and RESULT are accepted in every state. -/
theorem emptyBufferRespondsSeed : Obligations.EmptyBufferRespondsSeed := by
  refine ⟨rfl, rfl, fun s rest later hstream hsched => ?_⟩
  have hinit : step s = .next ((s.takeTurn.setCrc Config.seed).accept none) := step_accepts hstream hsched rfl
  obtain ⟨t, hread, -, hresponses, hcrc, hrest, -⟩ := step_result
    (s := (s.takeTurn.setCrc Config.seed).accept none) (congrArg List.tail hstream) (congrArg List.tail hsched)
  refine ⟨t, by rw [run_succ hinit, run_succ hread, run_zero], ?_, hcrc, hrest⟩
  rw [hresponses, State.accept_responses, Option.toList_none, List.append_nil]
  rfl

/-- Settles O50: the run of all the words in the block, and the running checksums in the block with atomic BUILD. -/
theorem streamingRespondsRunningChecksums : Obligations.StreamingRespondsRunningChecksums := by
  refine ⟨rfl, rfl, fun s chunks rest later h htv hstream hsched => ?_⟩
  have hlength : (Pseudo.new.words ++ feedAndRead chunks).length = 1 + (feedAndRead chunks).length := List.length_append
  have habs : s.abstract.run (Pseudo.new.words ++ feedAndRead chunks) = some { s.abstract with
      crc := fold Config.seed chunks.flatten, responses := s.responses ++ runningChecksums Config.seed chunks } :=
    (s.abstract.run_new_append _).trans
      (Abstract.run_feedAndRead (a := { s.abstract with crc := Config.seed }) (State.abstract_tv htv) chunks)
  obtain ⟨t, hrun, hafter, hcrc, hresponses⟩ := run_commands_result h htv
    (new_append_ne_build (feedAndRead_ne_build chunks)) habs hstream (by rw [hsched, hlength])
  rw [hlength] at hrun
  exact ⟨t, hrun, hresponses, hcrc, hafter.stream, hafter.schedule⟩

end Sys2Proof.Machine

/-! PROOFS. The family of 60_exceptions.md: the boundary, the three outcomes of a command and of a step, holding, and that the order of
the enabled steps never shows. -/

namespace Sys2Proof

/-! ## The boundary (R62, R69) -/

theorem byteOf_of_lt {n : Nat} (h : n < 256) : byteOf n = .ok (BitVec.ofNat 8 n) := by
  simp [byteOf, fitsByte, h]

theorem byteOf_of_le {n : Nat} (h : 256 ≤ n) : byteOf n = .error (.notAByte n) := by
  simp [byteOf, fitsByte, Nat.not_lt.mpr h]

/-- A number of the table decodes to no command exactly when it does not fit the given bits or the port (log entry 6). -/
theorem decodeTableWord_eq_none {n k : Nat} : decodeTableWord n k = none ↔ 2 ^ n ≤ k ∨ 1024 ≤ k := by
  constructor
  · intro h
    by_contra hfits
    obtain ⟨hbits, hport⟩ := not_or.mp hfits
    rw [decodeTableWord, if_pos (Nat.lt_of_not_le hbits), commandWordOf_of_lt (Nat.lt_of_not_le hport)] at h
    cases h
  · intro hwide
    cases h : decodeTableWord n k with
    | none => rfl
    | some i =>
      obtain ⟨hbits, hport, -⟩ := decodeTableWord_eq_some h
      omega

/-- Settles O5: each boundary by whether the number fits, where it passes with the value it had. -/
theorem boundaryRefusesNeverTruncates : Obligations.BoundaryRefusesNeverTruncates :=
  ⟨fun w => ⟨commandWordOf_of_le, fun h => ⟨_, commandWordOf_of_lt h, (BitVec.toNat_ofNat w 10).trans (Nat.mod_eq_of_lt h)⟩⟩,
    fun b => ⟨byteOf_of_le, fun h => ⟨_, byteOf_of_lt h, (BitVec.toNat_ofNat b 8).trans (Nat.mod_eq_of_lt h)⟩⟩,
    fun _ _ => decodeTableWord_eq_none⟩

end Sys2Proof

namespace Sys2Proof.Machine

/-! ## The order of the enabled steps (R64) -/

/-- Neither a table nor a build that would make one. -/
structure NoTable (s : State) : Prop where
  tv : s.tv = false
  gbusy : s.gbusy = false

/-- Without RESET nothing leads to a block without table and build but such a block, and no entry changes there: an accepted BUILD starts
a build, and a build only goes on or ends with the table (R12, R13). -/
theorem NoTable.of_step {s t : State} (ht : NoTable t) (hs : step s = .next t) (hnr : ¬AppliesReset s) :
    NoTable s ∧ ∀ j : Byte, t.tableRead j = s.tableRead j := by
  obtain ⟨htv, hidle⟩ := ht
  have hno : NoTable s := by
    cases step_flags hs with
    | buildAccepted _ _ hgbusy _ => simp [hgbusy] at hidle
    | buildEnds _ _ _ htv' _ _ => simp [htv'] at htv
    | buildAdvances _ _ _ _ hgbusy _ => simp [hgbusy] at hidle
    | reset c hturn _ _ _ => exact absurd ⟨c, hturn⟩ hnr
    | unchanged _ _ _ htv' hgbusy _ => exact ⟨htv' ▸ htv, hgbusy ▸ hidle⟩
  refine ⟨hno, ?_⟩
  cases step_table hs with
  | reset hr _ => exact absurd hr hnr
  | genWrites _ hbusy _ => simp [hno.gbusy] at hbusy
  | unchanged hread => exact hread

/-- A run without RESET that ends without table and build began so, and leaves every entry as it was. -/
theorem NoTable.of_run {k : Nat} {s t : State} (ht : NoTable t) (hfree : ResetFree s.schedule) (hrun : run k s = .next t) :
    NoTable s ∧ ∀ j : Byte, t.tableRead j = s.tableRead j := by
  induction k generalizing s with
  | zero =>
    rw [run_zero] at hrun
    obtain rfl : s = t := by injection hrun
    exact ⟨ht, fun _ => rfl⟩
  | succ k ih =>
    obtain ⟨u, hu, hrun⟩ := run_succ_cases hrun
    obtain ⟨hfree', hnr⟩ := hfree.step hu
    obtain ⟨hnou, hlater⟩ := ih hfree' hrun
    obtain ⟨hnos, hfirst⟩ := hnou.of_step hu hnr
    exact ⟨hnos, fun j => (hlater j).trans (hfirst j)⟩

/-- A run without RESET to the end of the stream shows what the whole stream does in the block with atomic BUILD (R48, R78). -/
theorem abstract_run_of_endOfRun {k : Nat} {s t : State} (h : BlockInv s) (hfree : ResetFree s.schedule)
    (hrun : run k s = .next t) (hend : EndOfRun t) : s.abstract.run s.stream = some t.abstract := by
  obtain ⟨done, hstream, habs⟩ := refinesAtomicBuild k s t h hfree hrun
  obtain ⟨hempty, -⟩ := hend
  rw [hstream, hempty, List.append_nil, habs]

/-- At the end of a run the atomic block shows TV, no build being left. -/
theorem EndOfRun.abstract_eq {s : State} (hend : EndOfRun s) : s.abstract = ⟨s.crc, s.tv, s.responses⟩ := by
  obtain ⟨-, hidle⟩ := hend
  simp [State.abstract, hidle]

/-- Settles O32: both ends show what the one stream does in the block with atomic BUILD, which fixes all but GI, 0 at both, and TABLE:
ENTRY at both if it is valid, and otherwise as it was at the start. -/
theorem scheduleNeverChangesResult : Obligations.ScheduleNeverChangesResult := by
  intro s t u sched sched' k k' h hfree hfree' hrun hrun' hend hend'
  have hinv (x : List Turn) : BlockInv { s with schedule := x } := h.congr rfl rfl rfl rfl
  have hinvt : BlockInv t := run_keeps (fun _ _ => BlockInv.step) (hinv sched) hrun
  have hinvu : BlockInv u := run_keeps (fun _ _ => BlockInv.step) (hinv sched') hrun'
  have hwhole : s.abstract.run s.stream = some t.abstract :=
    abstract_run_of_endOfRun (s := { s with schedule := sched }) (hinv sched) hfree hrun hend
  have hwhole' : s.abstract.run s.stream = some u.abstract :=
    abstract_run_of_endOfRun (s := { s with schedule := sched' }) (hinv sched') hfree' hrun' hend'
  rw [hwhole, hend.abstract_eq, hend'.abstract_eq, Option.some.injEq, Abstract.mk.injEq] at hwhole'
  obtain ⟨hcrc, htv, hresponses⟩ := hwhole'
  obtain ⟨-, hidle⟩ := hend
  obtain ⟨-, hidle'⟩ := hend'
  refine ⟨hresponses, hcrc.symm, fun j => ?_, htv.symm, hidle'.trans hidle.symm,
    (hinvu.idleIndex hidle').trans (hinvt.idleIndex hidle).symm⟩
  cases hvalid : t.tv with
  | true => exact hinvt.tableRead_eq hinvu hvalid (htv ▸ hvalid) j
  | false =>
    obtain ⟨-, hread⟩ := NoTable.of_run ⟨hvalid, hidle⟩ hfree hrun
    obtain ⟨-, hread'⟩ := NoTable.of_run ⟨htv ▸ hvalid, hidle'⟩ hfree' hrun'
    exact (hread' j).trans (hread j).symm

/-- GEN after an acceptance is the acceptance after GEN, but for the note of which came last: the host's channels are none of GEN's. -/
theorem State.genStep_accept (s : State) (r : Option Word) :
    (s.accept r).genStep = (s.genStep.accept r).note (s.accept r).genStep.event := by
  cases hbusy : s.gbusy with
  | false =>
    rw [State.genStep_idle hbusy, State.genStep_idle (s := s.accept r) hbusy]
    rfl
  | true =>
    by_cases hlast : s.gi = 255#8
    · rw [State.genStep_last hbusy hlast, State.genStep_last (s := s.accept r) hbusy hlast]
      rfl
    · rw [State.genStep_inner hbusy hlast, State.genStep_inner (s := s.accept r) hbusy hlast]
      rfl

/-- The effect of INIT is on CRC alone and READ has none, so that GEN comes to the same before and after (R64). -/
theorem State.effect_genStep (s : State) {i : Instr} (hi : i = .init ∨ i = .read) :
    s.genStep.effect i = (s.effect i).genStep := by
  rcases hi with rfl | rfl
  · exact (s.genStep_setCrc Config.seed).symm
  · rfl

/-- GEN does not change what a command responds. -/
theorem State.response_genStep (s : State) (i : Instr) : s.genStep.response i = s.response i := by
  cases i with
  | build => rfl
  | init => rfl
  | update b => rfl
  | read => exact congrArg some s.genStep_frame.1

/-- With a build running BUILD and UPDATE are both held (R64). -/
theorem BlockInv.init_or_read_of_ready {s : State} (h : BlockInv s) (hbusy : s.gbusy = true) {i : Instr}
    (hready : s.ready i = true) : i = .init ∨ i = .read := by
  cases i with
  | build => simp [hbusy] at hready
  | init => exact .inl rfl
  | update b => simp [h.tv_of_gbusy hbusy] at hready
  | read => exact .inr rfl

/-- INIT and READ are never held (R50, R52). -/
theorem State.ready_of_init_or_read (s : State) {i : Instr} (hi : i = .init ∨ i = .read) : s.ready i = true := by
  rcases hi with rfl | rfl <;> rfl

/-- Settles O31: which commands a running build leaves enabled, and GEN carried through effect, response and acceptance. -/
theorem coEnabledStepsCommute : Obligations.CoEnabledStepsCommute := by
  refine ⟨fun s i h hbusy hready => h.init_or_read_of_ready hbusy hready, fun s i hi => ?_⟩
  refine ⟨_, _, exec_accepted (s.ready_of_init_or_read hi), exec_accepted (s.genStep.ready_of_init_or_read hi), ?_⟩
  rw [s.effect_genStep hi, s.response_genStep i]
  exact State.genStep_accept _ _

/-! ## Held commands (R65) -/

/-- The commands that are held: BUILD during a build and UPDATE without a table. -/
theorem State.ready_eq_false_iff (s : State) (i : Instr) :
    s.ready i = false ↔ (i = .build ∧ s.gbusy = true) ∨ (∃ b, i = .update b) ∧ s.tv = false := by
  cases i <;> simp

/-- Settles O15: a held command leaves nothing but the note that it was held. -/
theorem heldCommandChangesNothing : Obligations.HeldCommandChangesNothing :=
  ⟨State.ready_eq_false_iff,
    fun _ _ hheld => ⟨_, exec_held hheld, ⟨rfl, fun _ => rfl, rfl, rfl, rfl⟩, rfl, rfl, rfl, rfl, rfl, rfl⟩⟩

/-! ## The outcomes of commands and steps (R61, R69) -/

/-- Settles O9: `Fault` has no constructor, and every command and every step answers a next state. -/
theorem nothingFaults : Obligations.NothingFaults :=
  ⟨nofun, fun i s => ⟨_, exec_next i s⟩, step_total⟩

theorem commandResult_eq_held_iff (i : Instr) (s : State) : commandResult i s = .held ↔ s.ready i = false := by
  rw [commandResult_eq_offer, offer_eq_held]

/-- READ alone responds, and its response is CRC (R35, R52). -/
theorem commandResult_eq_nextResponse_iff {i : Instr} {s t : State} {v : Word} :
    commandResult i s = .nextResponse t v ↔ i = .read ∧ t = s.accept (some s.crc) ∧ v = s.crc := by
  by_cases hread : i = .read
  · subst hread
    rw [commandResult_accepted (State.ready_read s), if_pos rfl, Result.nextResponse.injEq]
    simp [eq_comm]
  · refine iff_of_false (fun h => ?_) (fun h => hread h.1)
    cases hready : s.ready i with
    | false => rw [commandResult_held hready] at h; cases h
    | true => rw [commandResult_accepted hready, if_neg hread] at h; cases h

/-- The next state without a response is that of an accepted command. -/
theorem commandResult_eq_next {i : Instr} {s t : State} (h : commandResult i s = .next t) : t = (s.effect i).accept none := by
  cases hready : s.ready i with
  | false => rw [commandResult_held hready] at h; cases h
  | true =>
    rw [commandResult_accepted hready] at h
    split at h
    · cases h
    · exact (Result.next.inj h).symm

/-- A command responds exactly when it is a READ. -/
theorem exists_nextResponse_iff (i : Instr) (s : State) : (∃ t v, commandResult i s = .nextResponse t v) ↔ i = .read := by
  simp [commandResult_eq_nextResponse_iff]

/-- `step` is the step's outcome in the host's interface. -/
theorem step_eq_stepResult (s : State) : step s = (stepResult s).toOutcome s.takeTurn := by
  unfold stepResult
  cases hturn : s.turn with
  | gen => exact step_gen hturn
  | port =>
    cases hw : s.presented with
    | none => exact step_port_empty hturn hw
    | some w => exact (step_port hturn hw).trans (exec_eq_commandResult _ _)
  | reset c => exact step_reset hturn

/-- The outcome of a step is that of the presented command at the port's turn, and otherwise a next state without a response. -/
theorem stepResult_cases (s : State) :
    (∃ w, s.turn = .port ∧ s.presented = some w ∧ stepResult s = commandResult (decode w) s.takeTurn) ∨
      ((∀ w, ¬(s.turn = .port ∧ s.presented = some w)) ∧ ∃ t, stepResult s = .next t) := by
  unfold stepResult
  cases hturn : s.turn with
  | gen => exact .inr ⟨by simp, _, rfl⟩
  | port =>
    cases hw : s.presented with
    | none => exact .inr ⟨by simp, _, rfl⟩
    | some w => exact .inl ⟨w, rfl, rfl, rfl⟩
  | reset c => exact .inr ⟨by simp, _, rfl⟩

/-- A step responds exactly when it accepts a READ (R35). -/
theorem stepResult_responds_iff (s : State) : (∃ t v, stepResult s = .nextResponse t v) ↔ AcceptsRead s := by
  rcases stepResult_cases s with ⟨w, hturn, hw, hresult⟩ | ⟨hnone, t, hresult⟩
  · rw [hresult, exists_nextResponse_iff, acceptsRead_iff hturn hw]
  · exact iff_of_false (by simp [hresult]) fun ⟨hturn, w, hw, _⟩ => hnone w ⟨hturn, hw⟩

/-- A step is held exactly when the port's turn finds a command whose acceptance condition is false (R65). -/
theorem stepResult_held_iff (s : State) :
    stepResult s = .held ↔ s.turn = .port ∧ ∃ w, s.presented = some w ∧ s.ready (decode w) = false := by
  rcases stepResult_cases s with ⟨w, hturn, hw, hresult⟩ | ⟨hnone, t, hresult⟩
  · rw [hresult, commandResult_eq_held_iff, State.takeTurn_ready]
    simp [hturn, hw]
  · exact iff_of_false (by simp [hresult]) fun ⟨hturn, w, hw, _⟩ => hnone w ⟨hturn, hw⟩

/-- Settles O52: the outcome of a command read off its acceptance condition, and that of a step off whose turn it is; neither is a
refusal, since both answer a next state. -/
theorem threeOutcomesOnly : Obligations.ThreeOutcomesOnly := by
  refine ⟨fun i s => ⟨exec_eq_commandResult i s, ?_, exists_nextResponse_iff i s, fun t v h => ?_, fun t h => ?_, fun r => ?_⟩,
    fun s => ⟨step_eq_stepResult s, stepResult_responds_iff s, stepResult_held_iff s, fun r => ?_⟩⟩
  · rw [commandResult_eq_held_iff, State.ready_eq_false_iff]
  · obtain ⟨-, rfl, rfl⟩ := commandResult_eq_nextResponse_iff.mp h
    exact ⟨rfl, by rw [exec_eq_commandResult, h, Result.toOutcome], rfl⟩
  · obtain rfl := commandResult_eq_next h
    exact ⟨by rw [exec_eq_commandResult, h, Result.toOutcome], rfl⟩
  · rw [exec_next]
    nofun
  · obtain ⟨t, ht⟩ := step_total s
    rw [ht]
    nofun

end Sys2Proof.Machine

/-! PROOFS. The family of 70_reset_and_hazards.md: RESET, the block without a table, the stuck state and the end of a run, where nothing
is enabled, and what completes under the free choices. -/

namespace Sys2Proof.Machine

/-- Settles O25: a step at RESET's turn applies it, and the reset values are those of the state RESET leaves. -/
theorem resetFromAnyState : Obligations.ResetFromAnyState :=
  ⟨fun _ _ _ => State.turn_cons rfl,
    fun _ _ hturn => ⟨_, step_reset hturn, rfl, rfl, rfl, rfl, fun _ => rfl, rfl, rfl, rfl⟩⟩

/-! ## Runs without RESET -/

theorem run_total (k : Nat) (s : State) : ∃ t, run k s = .next t := by
  induction k generalizing s with
  | zero => exact ⟨s, run_zero s⟩
  | succ k ih =>
    obtain ⟨t, hs⟩ := step_total s
    rw [run_succ hs]
    exact ih t

/-- What every step but RESET keeps, a run without RESET keeps. -/
theorem run_keeps_of_resetFree {P : State → Prop} (hstep : ∀ s t, P s → ¬AppliesReset s → step s = .next t → P t) {k : Nat}
    {s t : State} (hs : P s) (hfree : ResetFree s.schedule) (hrun : run k s = .next t) : P t := by
  have hboth : P t ∧ ResetFree t.schedule := by
    refine run_keeps (P := fun x => P x ∧ ResetFree x.schedule) (fun x y hx hs => ?_) ⟨hs, hfree⟩ hrun
    obtain ⟨hP, hfree⟩ := hx
    obtain ⟨hfree', hnr⟩ := hfree.step hs
    exact ⟨hstep x y hP hnr hs, hfree'⟩
  exact hboth.1

/-- A step of a block without a build, other than RESET, accepts the presented command or leaves but a note of what it was. -/
theorem step_of_idle {s t : State} (hidle : s.gbusy = false) (hnr : ¬AppliesReset s) (hs : step s = .next t) :
    (∃ w, s.presented = some w ∧ s.ready (decode w) = true ∧
      t = (s.takeTurn.effect (decode w)).accept (s.takeTurn.response (decode w))) ∨
    ∃ e, t = s.takeTurn.note e := by
  rcases step_cases hs with ⟨-, rfl⟩ | ⟨-, -, rfl⟩ | ⟨w, -, hw, hready, rfl⟩ | ⟨w, -, -, -, rfl⟩ | ⟨c, hturn, -⟩
  · exact .inr ⟨.waiting, State.genStep_idle (s := s.takeTurn) hidle⟩
  · exact .inr ⟨.waiting, rfl⟩
  · exact .inl ⟨w, hw, hready, rfl⟩
  · exact .inr ⟨.held, rfl⟩
  · exact absurd ⟨c, hturn⟩ hnr

/-! ## Without a BUILD (R71) -/

/-- `t` has neither table nor build and none to come, and the entries of TABLE are those of `s`. -/
structure NoTableSince (s t : State) : Prop where
  noTable : NoTable t
  noBuild : ∀ w ∈ t.stream, decode w ≠ .build
  table : t.table = s.table
  resets : t.resets = s.resets

/-- Only the acceptance of a BUILD could start a build, and the stream holds none. -/
theorem NoTableSince.step {r s t : State} (h : NoTableSince r s) (hnr : ¬AppliesReset s) (hs : step s = .next t) :
    NoTableSince r t := by
  obtain ⟨⟨htv, hidle⟩, hnb, htable, hresets⟩ := h
  rcases step_of_idle hidle hnr hs with ⟨w, hw, -, rfl⟩ | ⟨e, rfl⟩
  · obtain ⟨htv', hgbusy, -⟩ := s.takeTurn.effect_flags_of_ne_build (hnb w (List.mem_of_mem_head? hw))
    exact ⟨⟨htv'.trans htv, hgbusy.trans hidle⟩, fun v hv => hnb v (List.mem_of_mem_tail (by simpa using hv)),
      by simpa using htable, by simpa using hresets⟩
  · exact ⟨⟨htv, hidle⟩, hnb, htable, hresets⟩

/-- Settles O26, by the steps of the run: each keeps what is said, and that the stream holds no BUILD. -/
theorem noTableWithoutBuild : Obligations.NoTableWithoutBuild := by
  intro k s t htv hidle hfree hnb hrun
  obtain ⟨⟨htv', hidle'⟩, -, htable, hresets⟩ : NoTableSince s t :=
    run_keeps_of_resetFree (fun _ _ => NoTableSince.step) ⟨⟨htv, hidle⟩, hnb, rfl, rfl⟩ hfree hrun
  exact ⟨htv', hidle', htable, hresets⟩

/-! ## Where nothing is enabled (R75, R78) -/

theorem State.commandEnabled_of_presented {s : State} {w : CmdWord} (hw : s.presented = some w) :
    s.commandEnabled = s.ready (decode w) := by
  simp [State.commandEnabled, hw]

theorem State.commandEnabled_of_stream_nil {s : State} (hstream : s.stream = []) : s.commandEnabled = false := by
  simp [State.commandEnabled, State.presented, hstream]

/-- Whether a command can be accepted is decided by the flags and the stream (R38). -/
theorem State.commandEnabled_congr {s t : State} (htv : t.tv = s.tv) (hgbusy : t.gbusy = s.gbusy)
    (hstream : t.stream = s.stream) : t.commandEnabled = s.commandEnabled := by
  have hready (i : Instr) : t.ready i = s.ready i := by cases i <;> simp [htv, hgbusy]
  simp [State.commandEnabled, State.presented, hstream, hready]

theorem State.exists_presented_of_commandEnabled {s : State} (h : s.commandEnabled = true) :
    ∃ w, s.presented = some w ∧ s.ready (decode w) = true := by
  cases hw : s.presented with
  | none => simp [State.commandEnabled, hw] at h
  | some w => exact ⟨w, rfl, State.commandEnabled_of_presented hw ▸ h⟩

/-- `t` has the block, the stream and the responses of `s`. -/
structure Unmoved (s t : State) : Prop where
  block : SameBlock s t
  stream : t.stream = s.stream
  responses : t.responses = s.responses

theorem Unmoved.refl (s : State) : Unmoved s s := ⟨⟨rfl, fun _ => rfl, rfl, rfl, rfl⟩, rfl, rfl⟩

theorem Unmoved.takeTurn_note {s t : State} (h : Unmoved s t) (e : Event) : Unmoved s (t.takeTurn.note e) :=
  ⟨⟨h.block.crc, h.block.table, h.block.tv, h.block.gbusy, h.block.gi⟩, h.stream, h.responses⟩

/-- With neither GEN nor a command enabled, nothing but RESET moves the block. -/
theorem run_unmoved {s : State} (hidle : s.gbusy = false) (hheld : s.commandEnabled = false) (hfree : ResetFree s.schedule)
    (k : Nat) : ∃ t, run k s = .next t ∧ Unmoved s t := by
  obtain ⟨t, hrun⟩ := run_total k s
  refine ⟨t, hrun, run_keeps_of_resetFree (fun x y hx hnr hs => ?_) (Unmoved.refl s) hfree hrun⟩
  rcases step_of_idle (hx.block.gbusy.trans hidle) hnr hs with ⟨w, hw, hready, -⟩ | ⟨e, rfl⟩
  · have hheld' : x.commandEnabled = false :=
      (State.commandEnabled_congr hx.block.tv hx.block.gbusy hx.stream).trans hheld
    rw [State.commandEnabled_of_presented hw, hready] at hheld'
    cases hheld'
  · exact hx.takeTurn_note e

/-- Being stuck is decided by the flags and the stream. -/
theorem Stuck.congr {s t : State} (h : Stuck s) (htv : t.tv = s.tv) (hgbusy : t.gbusy = s.gbusy)
    (hstream : t.stream = s.stream) : Stuck t := by
  rw [Stuck, State.presented, hstream, htv, hgbusy]
  exact h

theorem Stuck.commandEnabled {s : State} (h : Stuck s) : s.commandEnabled = false := by
  obtain ⟨⟨w, b, hw, hdec⟩, htv, -⟩ := h
  rw [State.commandEnabled_of_presented hw, hdec, State.ready_update, htv]

/-- With a word presented and no build, only an UPDATE without a table is held (R75). -/
theorem stuck_of_not_enabled {s : State} (hstream : s.stream ≠ []) (hidle : s.gbusy = false) (hheld : s.commandEnabled = false) :
    Stuck s := by
  obtain ⟨w, rest, hcons⟩ := List.exists_cons_of_ne_nil hstream
  have hw : s.presented = some w := by simp [State.presented, hcons]
  rw [State.commandEnabled_of_presented hw, State.ready_eq_false_iff] at hheld
  rcases hheld with ⟨-, hbusy⟩ | ⟨⟨b, hdec⟩, htv⟩
  · simp [hidle] at hbusy
  · exact ⟨⟨w, b, hw, hdec⟩, htv, hidle⟩

/-- Settles O35: a stuck block has nothing enabled, RESET leaves it without table and build and the stream as it is, and with a word
presented an idle block that does not accept it is stuck. -/
theorem stuckUntilReset : Obligations.StuckUntilReset := by
  refine ⟨fun k s hstuck hfree => ?_, fun s t hstuck hturn hs => ?_, fun s => stuck_of_not_enabled⟩
  · have ⟨_, _, hidle⟩ := hstuck
    obtain ⟨t, hrun, hsame, hstream, hresponses⟩ := run_unmoved hidle hstuck.commandEnabled hfree k
    exact ⟨t, hrun, hstuck.congr hsame.tv hsame.gbusy hstream, hsame, hstream, hresponses⟩
  · rw [step_reset hturn] at hs
    injection hs with hs
    subst hs
    have ⟨_, htv, hidle⟩ := hstuck
    exact hstuck.congr htv.symm hidle.symm rfl

/-- Settles O36: with the stream exhausted and no build nothing is enabled. -/
theorem endedRunWaits : Obligations.EndedRunWaits := by
  intro k s hend hfree
  obtain ⟨hempty, hidle⟩ := hend
  obtain ⟨t, hrun, hsame, hstream, hresponses⟩ := run_unmoved hidle (State.commandEnabled_of_stream_nil hempty) hfree k
  exact ⟨t, hrun, ⟨hstream.trans hempty, hsame.gbusy.trans hidle⟩, hsame, hresponses⟩

/-! ## The work left under the free choices (R77) -/

@[simp] theorem State.takeTurn_workLeft (s : State) : s.takeTurn.workLeft = s.workLeft := rfl

@[simp] theorem State.takeTurn_bootOk (s : State) : s.takeTurn.bootOk = s.bootOk := rfl

theorem EndOfRun.of_workLeft {s : State} (h : s.workLeft = 0) : EndOfRun s := by
  have hgi : s.gi.toNat < 256 := s.gi.isLt
  unfold State.workLeft at h
  refine ⟨List.eq_nil_of_length_eq_zero (by omega), ?_⟩
  cases hbusy : s.gbusy with
  | false => rfl
  | true =>
    rw [hbusy, if_pos rfl] at h
    omega

theorem EndOfRun.workLeft {s : State} (h : EndOfRun s) : s.workLeft = 0 := by
  obtain ⟨hempty, hidle⟩ := h
  simp [State.workLeft, hempty, hidle, buildCount]

/-- A GEN step of a running build is one step of the work. -/
theorem State.workLeft_genStep {s : State} (hbusy : s.gbusy = true) : s.genStep.workLeft + 1 = s.workLeft := by
  have hgi : s.gi.toNat < 256 := s.gi.isLt
  obtain ⟨-, hstream, -⟩ := s.genStep_frame
  by_cases hlast : s.gi = 255#8
  · obtain ⟨-, hbusy', -⟩ := State.genStep_flags_last hbusy hlast
    simp [State.workLeft, hstream, hbusy, hbusy', hlast]
  · obtain ⟨hgi', hbusy', -⟩ := State.genStep_flags_inner hbusy hlast
    have hlt : s.gi.toNat < 255 := by bv_omega
    simp only [State.workLeft, hstream, hbusy, hbusy', hgi', if_pos]
    omega

/-- The acceptance of a command is one step of the work: that of a BUILD trades its 256 steps for those of the build it starts. -/
theorem State.workLeft_accept {s : State} {w : CmdWord} (hw : s.presented = some w) (hready : s.ready (decode w) = true)
    (r : Option Word) : ((s.effect (decode w)).accept r).workLeft + 1 = s.workLeft := by
  obtain ⟨rest, hstream⟩ : ∃ rest, s.stream = w :: rest := ⟨_, State.presented_eq_some hw⟩
  by_cases hbuild : decode w = .build
  · have hidle : s.gbusy = false := by simpa [hbuild] using hready
    simp [State.workLeft, hstream, buildCount, hbuild, hidle, State.effect]
    omega
  · obtain ⟨-, hgbusy, hgi⟩ := s.effect_flags_of_ne_build hbuild
    simp [State.workLeft, hstream, buildCount, hbuild, hgbusy, hgi]
    omega

/-! ## The boot requirement (R72) -/

theorem Stuck.bootOk {s : State} (h : Stuck s) : s.bootOk = false := by
  obtain ⟨⟨w, b, hw, hdec⟩, htv, hidle⟩ := h
  rw [State.bootOk, State.presented_eq_some hw, htv, hidle]
  simp [bootsFirst, hdec]

theorem State.bootOk_genStep {s : State} (hbusy : s.gbusy = true) : s.genStep.bootOk = true := by
  by_cases hlast : s.gi = 255#8
  · obtain ⟨-, -, htv⟩ := State.genStep_flags_last hbusy hlast
    simp [State.bootOk, htv]
  · obtain ⟨-, hbusy', -⟩ := State.genStep_flags_inner hbusy hlast
    simp [State.bootOk, hbusy']

/-- The acceptance of a command keeps the boot requirement: BUILD starts the build, UPDATE finds the table, and INIT and READ leave the
first BUILD before the first UPDATE. -/
theorem State.bootOk_accept {s : State} {w : CmdWord} (hw : s.presented = some w) (hready : s.ready (decode w) = true)
    (hboot : s.bootOk = true) (r : Option Word) : ((s.effect (decode w)).accept r).bootOk = true := by
  rw [State.bootOk, State.presented_eq_some hw] at hboot
  cases hdec : decode w with
  | build => simp [State.bootOk, State.effect]
  | init => simpa [State.bootOk, State.effect, bootsFirst, hdec] using hboot
  | update b =>
    have htv : s.tv = true := by simpa [hdec] using hready
    simp [State.bootOk, State.effect, htv]
  | read => simpa [State.bootOk, State.effect, bootsFirst, hdec] using hboot

/-! ## Completion under the free choices (R72, R77) -/

/-- Where nothing is scheduled an enabled step is taken, if there is one (R64, log entry 2). -/
theorem State.turn_free_cases {s : State} (hsched : s.schedule = []) :
    s.turn = .gen ∧ s.gbusy = true ∨ s.turn = .port ∧ (s.commandEnabled = true ∨ s.gbusy = false) := by
  rw [State.turn_nil hsched, State.freeTurn]
  split
  · next h => exact .inl ⟨rfl, (Bool.and_eq_true_iff.mp h).1⟩
  · next h =>
    refine .inr ⟨rfl, ?_⟩
    cases hen : s.commandEnabled with
    | true => exact .inl rfl
    | false => exact .inr (by simpa [hen] using h)

/-- Short of the end of the run, a stream that respects the boot requirement has an enabled step, which is one step of the work. -/
theorem step_free_progress {s : State} (hsched : s.schedule = []) (hboot : s.bootOk = true) (hend : ¬EndOfRun s) :
    ∃ t, step s = .next t ∧ t.schedule = [] ∧ t.bootOk = true ∧ t.workLeft + 1 = s.workLeft := by
  obtain ⟨t, hs⟩ := step_total s
  refine ⟨t, hs, by rw [step_schedule hs, hsched, List.tail_nil], ?_⟩
  rcases State.turn_free_cases hsched with ⟨hturn, hbusy⟩ | ⟨hturn, henabled⟩
  · rw [step_gen hturn] at hs
    injection hs with hs
    subst hs
    exact ⟨State.bootOk_genStep (s := s.takeTurn) hbusy, State.workLeft_genStep (s := s.takeTurn) hbusy⟩
  · have hen : s.commandEnabled = true := by
      rcases henabled with hen | hidle
      · exact hen
      · by_contra hheld
        have hstuck : Stuck s := stuck_of_not_enabled (fun hempty => hend ⟨hempty, hidle⟩) hidle (by simpa using hheld)
        simp [hstuck.bootOk] at hboot
    obtain ⟨w, hw, hready⟩ := State.exists_presented_of_commandEnabled hen
    have hready' : s.takeTurn.ready (decode w) = true := (s.takeTurn_ready _).trans hready
    rw [step_port hturn hw, exec_accepted hready'] at hs
    injection hs with hs
    subst hs
    exact ⟨State.bootOk_accept (s := s.takeTurn) hw hready' hboot _, State.workLeft_accept (s := s.takeTurn) hw hready' _⟩

/-- By the free choices the work left is done in as many steps as it counts. -/
theorem run_workLeft {s : State} (hsched : s.schedule = []) (hboot : s.bootOk = true) :
    ∃ t, run s.workLeft s = .next t ∧ EndOfRun t := by
  induction hwork : s.workLeft generalizing s with
  | zero => exact ⟨s, rfl, .of_workLeft hwork⟩
  | succ n ih =>
    have hend : ¬EndOfRun s := fun hend => by simp [hend.workLeft] at hwork
    obtain ⟨u, hs, hsched', hboot', hless⟩ := step_free_progress hsched hboot hend
    rw [run_succ hs]
    exact ih hsched' hboot' (by omega)

theorem resetFree_nil : ResetFree [] := fun _ hx => absurd hx List.not_mem_nil

/-- Settles O34: the free choices do the work left, and the end shows what the block with atomic BUILD does. -/
theorem bootedStreamCompletes : Obligations.BootedStreamCompletes := by
  intro s h hsched hboot
  obtain ⟨t, hrun, hend⟩ := run_workLeft hsched hboot
  exact ⟨t, hrun, hend, abstract_run_of_endOfRun h (hsched ▸ resetFree_nil) hrun hend⟩

/-! ## Commands held during a build (R73, R74) -/

/-- `t` is `s`, in which a build was running, after the end of that build. -/
structure BuildOver (s t : State) : Prop where
  inv : BlockInv t
  tv : t.tv = true
  gbusy : t.gbusy = false
  crc : t.crc = s.crc
  stream : t.stream = s.stream
  schedule : t.schedule = []

/-- With the presented command held, or none presented, the free choice during a build is GEN. -/
theorem State.turn_gen_of_held {s : State} (hsched : s.schedule = []) (hbusy : s.gbusy = true)
    (hheld : s.commandEnabled = false) : s.turn = .gen := by
  rw [State.turn_nil hsched, State.freeTurn, hbusy, hheld]
  rfl

/-- Then the free choices run the build to its end, from entry `gi` in the `n` steps that are left of 256. -/
theorem run_buildOver {s : State} (h : BlockInv s) (hbusy : s.gbusy = true) (hsched : s.schedule = [])
    (hheld : s.commandEnabled = false) {n : Nat} (hn : s.gi.toNat + n = 256) :
    ∃ t, run n s = .next t ∧ BuildOver s t := by
  induction n generalizing s with
  | zero => exact absurd hn (Nat.ne_of_lt s.gi.isLt)
  | succ n ih =>
    have hs : step s = .next s.takeTurn.genStep := step_gen (State.turn_gen_of_held hsched hbusy hheld)
    have hsched' : s.takeTurn.genStep.schedule = [] := by rw [step_schedule hs, hsched, List.tail_nil]
    obtain ⟨hcrc, hstream, -⟩ := s.takeTurn.genStep_frame
    rw [run_succ hs]
    by_cases hlast : s.gi = 255#8
    · obtain ⟨-, hbusy', htv⟩ := State.genStep_flags_last (s := s.takeTurn) hbusy hlast
      obtain rfl : n = 0 := by bv_omega
      exact ⟨_, rfl, h.step hs, htv, hbusy', hcrc, hstream, hsched'⟩
    · obtain ⟨hgi, hbusy', htv⟩ := State.genStep_flags_inner (s := s.takeTurn) hbusy hlast
      have hheld' : s.takeTurn.genStep.commandEnabled = false :=
        (State.commandEnabled_congr htv (hbusy'.trans hbusy.symm) hstream).trans hheld
      have hgi' : s.takeTurn.genStep.gi.toNat = s.gi.toNat + 1 := hgi
      obtain ⟨t, hrun, hover⟩ := ih (h.step hs) hbusy' hsched' hheld' (by omega)
      exact ⟨t, hrun, hover.inv, hover.tv, hover.gbusy, hover.crc.trans hcrc, hover.stream.trans hstream, hover.schedule⟩

/-- With a table and a free choice a presented UPDATE is accepted and folds its byte (R51). -/
theorem step_update {s : State} {w : CmdWord} {b : Byte} (h : BlockInv s) (htv : s.tv = true) (hturn : s.turn = .port)
    (hw : s.presented = some w) (hdec : decode w = .update b) :
    ∃ t, step s = .next t ∧ t.crc = upd s.crc b ∧ t.stream = s.stream.tail := by
  have hinv : BlockInv s.takeTurn := h.congr rfl rfl rfl rfl
  rw [step_port hturn hw, hdec]
  exact ⟨_, exec_accepted (i := .update b) htv, by rw [hinv.effect_update htv]; rfl, rfl⟩

/-- Settles O37: the command is held until the build is over, which the free choices run first; then the turn is the port's, and after
a BUILD, with nothing more presented, the second build runs likewise. -/
theorem heldCommandRunsAfterBuild : Obligations.HeldCommandRunsAfterBuild := by
  have hleft (s : State) : s.gi.toNat + (256 - s.gi.toNat) = 256 := Nat.add_sub_cancel' (Nat.le_of_lt s.gi.isLt)
  refine ⟨fun s w b rest h hbusy hsched hstream hdec => ?_, fun s w h hbusy hsched hstream hdec => ?_⟩
  · have hw : s.presented = some w := by simp [State.presented, hstream]
    have hheld : s.commandEnabled = false := by
      rw [State.commandEnabled_of_presented hw, hdec, State.ready_update, h.tv_of_gbusy hbusy]
    obtain ⟨t, hrun, hover⟩ := run_buildOver h hbusy hsched hheld (hleft s)
    have hw' : t.presented = some w := by simp [State.presented, hover.stream, hstream]
    obtain ⟨u, hs, hcrc, hrest⟩ :=
      step_update hover.inv hover.tv (State.turn_port_of_idle hover.schedule hover.gbusy) hw' hdec
    exact ⟨t, u, hrun, hover.tv, hover.stream, hover.crc, hs, by rw [hcrc, hover.crc],
      by rw [hrest, hover.stream, hstream, List.tail_cons]⟩
  · have hw : s.presented = some w := by simp [State.presented, hstream]
    have hheld : s.commandEnabled = false := by
      rw [State.commandEnabled_of_presented hw, hdec, State.ready_build, hbusy, Bool.not_true]
    obtain ⟨t, hrun, hover⟩ := run_buildOver h hbusy hsched hheld (hleft s)
    have ha : AcceptsBuild t :=
      ⟨State.turn_port_of_idle hover.schedule hover.gbusy, hover.gbusy, w, by simp [State.presented, hover.stream, hstream], hdec⟩
    have hs : step t = .next (t.takeTurn.startBuild.accept none) := ha.step_eq
    have hempty : (t.takeTurn.startBuild.accept none).stream = [] := by simp [hover.stream, hstream]
    obtain ⟨v, hrun', hover'⟩ := run_buildOver (hover.inv.step hs) rfl (by simp [hover.schedule])
      (State.commandEnabled_of_stream_nil hempty) (n := 256) rfl
    exact ⟨t, _, v, hrun, hover.tv, hover.stream, hs, rfl, rfl, rfl, hempty, hrun', hover'.tv, hover'.gbusy,
      hover'.crc.trans hover.crc, fun j => State.tableRead_of_get? (hover'.inv.valid hover'.tv j)⟩

/-! ## A BUILD in the middle of a computation (R76) -/

/-- In the block with atomic BUILD, which never loses its table, a BUILD between two FEEDs changes nothing. -/
theorem Abstract.run_rebuild {a : Abstract} (htv : a.tv = true) (S T : List Byte) :
    a.run ([encode .init] ++ (Pseudo.feed S).words ++ [encode .build] ++ (Pseudo.feed T).words ++ [encode .read]) =
      some ⟨fold Config.seed (S ++ T), true, a.responses ++ [fold Config.seed (S ++ T)]⟩ := by
  have hinit : a.run [encode .init] = some { a with crc := Config.seed } := rfl
  have hfeedS : Abstract.run { a with crc := Config.seed } (Pseudo.feed S).words = some { a with crc := fold Config.seed S } :=
    Abstract.run_feed (a := { a with crc := Config.seed }) htv S
  have hbuild : Abstract.run { a with crc := fold Config.seed S } [encode .build] = some ⟨fold Config.seed S, true, a.responses⟩ := rfl
  have hfeedT : Abstract.run ⟨fold Config.seed S, true, a.responses⟩ (Pseudo.feed T).words =
      some ⟨fold Config.seed (S ++ T), true, a.responses⟩ := by
    rw [Abstract.run_feed rfl, fold_append]
  simp only [Abstract.run_append, hinit, hfeedS, hbuild, hfeedT, Option.bind_some]
  rfl

/-- Settles O51: the end of every run without RESET shows what the block with atomic BUILD does, and the free choices come to an end. -/
theorem rebuildKeepsComputation : Obligations.RebuildKeepsComputation := by
  intro s S T h htv hstream
  refine ⟨fun k t hfree hrun hend => ?_, fun hsched => ?_⟩
  · have hwhole : s.abstract.run s.stream = some t.abstract := abstract_run_of_endOfRun h hfree hrun hend
    rw [hstream, Abstract.run_rebuild (State.abstract_tv htv)] at hwhole
    exact (congrArg Abstract.responses (Option.some.inj hwhole)).symm
  · exact ⟨_, run_workLeft hsched (by simp [State.bootOk, htv])⟩

end Sys2Proof.Machine

/-! PROOFS. The family 'other': the sample words of 95_test_vectors.md section 5. -/

namespace Sys2Proof

/-- Settles O3: the decoder's equation for each word's `op`; UPDATE's operand is read from `data`, the other commands' `data` is not
read (R34). -/
theorem sampleWordsDecode : Obligations.SampleWordsDecode :=
  ⟨decode_build rfl, decode_build rfl, decode_init rfl, decode_init rfl, decode_update rfl, decode_update rfl,
    decode_read rfl, decode_read rfl⟩

end Sys2Proof
